-- ==== Sys2Proof/Word.lean ====
section
/-! DEFINITION. The two words of the machine: bytes and addresses (spec/00_scope.md R6, R8). -/

namespace Sys2Proof

/-- An 8-bit datum (R6: "data width 8 bits"). -/
abbrev Byte := BitVec 8

/-- A 16-bit address (R6: "address width 16 bits"). -/
abbrev Addr := BitVec 16

end Sys2Proof
end

