-- ==== Sys2Proof/Machine/Bits.lean ====
section
/-! DEFINITION. Bit fields, byte order and the sign extension (spec/00_scope.md R8, spec/20_memory.md R59). -/

namespace Sys2Proof.Machine

/-- Bits 7:0 of an address. -/
def loByte (a : Addr) : Byte := a.setWidth 8

/-- Bits 15:8 of an address: its page. -/
def hiByte (a : Addr) : Byte := (a >>> 8).setWidth 8

/-- `{hi, lo}` (R8): the 16-bit value whose high byte is `hi`; little-endian callers pass the byte at the higher address
first (R59). -/
def pair (hi lo : Byte) : Addr := hi ++ lo

/-- `zext_16` of a byte: an address in page 0 (R8, R104). -/
def zeroPage (z : Byte) : Addr := pair 0 z

/-- The stack location `0x0100 + S` (R9, R22). -/
def stackAddr (sp : Byte) : Addr := pair 1 sp

/-- `zext_16(i)` as the amount an index register adds to an address (R108, R111). -/
def indexed (a : Addr) (i : Byte) : Addr := a + i.setWidth 16

/-- R119: adding the index crosses a page iff the low bytes carry. -/
def crosses (a : Addr) (i : Byte) : Bool := decide (256 ≤ (loByte a).toNat + i.toNat)

/-- The uncarried sum `{hi, (lo + index) mod 256}` (R118). -/
def uncarried (a : Addr) (i : Byte) : Addr := pair (hiByte a) (loByte a + i)

/-- `(pc + sext_8(off)) mod 65536` (R115). -/
def relative (pc : Addr) (off : Byte) : Addr := pc + off.signExtend 16

/-- Replace bits 7:0. -/
def withLo (a : Addr) (b : Byte) : Addr := pair (hiByte a) b

/-- Replace bits 15:8. -/
def withHi (a : Addr) (b : Byte) : Addr := pair b (loByte a)

/-- Byte `k` of a 32-bit word, byte 0 the least significant. -/
def byteOf (w : BitVec 32) (k : Nat) : Byte := w.extractLsb' (8 * k) 8

/-- The 32-bit word of four bytes, most significant first (R360). -/
def quad (b3 b2 b1 b0 : Byte) : BitVec 32 := b3 ++ b2 ++ b1 ++ b0

end Sys2Proof.Machine
end

