-- ==== Sys2Proof/Config.lean ====
section
/-! DEFINITION. What an implementation fixes: the named parameters of spec/00_scope.md R7, and the free values, constants
without a body, for what the spec leaves open (spec/93_implementation_defined.md part 1). -/

namespace Sys2Proof

/-- `DUMMY_ADDR_POLICY` (R7, R118): where an indexed mode's dummy read goes. -/
inductive DummyPolicy where
  | uncarried
  | lastOperandByte
deriving DecidableEq, Repr

/-- `MATH_SIGN_TEST` (R7, R367): how the math unit decides that an operand is negative. -/
inductive MathSignTest where
  | bit15
  | minusOneBit15
deriving DecidableEq, Repr

/-- The cartridge as loaded (R7, R41, R380): the image, and per bank its size and its offset in the image. -/
structure CartImage where
  image : List Byte
  bankSize : Vector Nat 2
  bankOffset : Vector Nat 2
deriving DecidableEq, Repr

/-- The named parameters of R7 that are plain data, each with the spec's name. DESIGN CHOICE (log 1): they stand in the state,
where no step changes them, so that every statement about every state holds for every setting. -/
structure Params where
  /-- `STRICT_UNDEFINED` -/
  strictUndefined : Bool
  /-- `BITOPS` -/
  bitops : Bool
  /-- `UNDEF_EXTRA_CYCLES` as the list of its exceptions to 0 -/
  undefExtraCycles : List (Byte × Nat)
  /-- `DUMMY_ADDR_POLICY` -/
  dummyPolicy : DummyPolicy
  /-- `INT_CLEARS_D` -/
  intClearsD : Bool
  /-- `RESET_CYCLES` (at least 2: R402) -/
  resetCycles : Nat
  /-- `ROM`: the cells of the 512-byte image by offset; an unlisted offset reads 0 (log 3) -/
  rom : List (Nat × Byte)
  /-- `ROM_WRITE_THROUGH` -/
  romWriteThrough : Bool
  /-- `STALL_TICKS_DEVICES` -/
  stallTicksDevices : Bool
  /-- `MATH_SIGN_TEST` -/
  mathSignTest : MathSignTest
  /-- `CARTROM`, `bank_size`, `bank_offset` -/
  cart : CartImage
deriving DecidableEq, Repr

/-- The defaults of R7; the free images are empty (log 3, log 20). -/
def Params.defaults : Params where
  strictUndefined := false
  bitops := false
  undefExtraCycles := []
  dummyPolicy := .uncarried
  intClearsD := false
  resetCycles := 7
  rom := []
  romWriteThrough := false
  stallTicksDevices := true
  mathSignTest := .bit15
  cart := { image := [], bankSize := #v[0, 0], bankOffset := #v[0, 0] }

/-- The inputs that R45 leaves free at power-on and R400 names: `RESET_A`, `RESET_X`, `RESET_Y`, `RESET_S`, `RESET_NVZC`, the
RAM contents and the host's latches. -/
structure PowerOnInputs where
  a : Byte
  x : Byte
  y : Byte
  sp : Byte
  n : Bool
  v : Bool
  z : Bool
  c : Bool
  ram : List (Nat × Byte)
  joystick : Byte
  switches : Byte
deriving DecidableEq, Repr

/-- The power-on inputs `State.reset` takes. DESIGN CHOICE, unsafe (log 2, log 4, log 5, log 18). -/
def PowerOnInputs.chosen : PowerOnInputs where
  a := 0
  x := 0
  y := 0
  sp := 0xFD
  n := false
  v := false
  z := false
  c := false
  ram := []
  joystick := 0xFF
  switches := 0xFF

/-- The persistent sprite-parameter registers (R36). -/
structure SpriteRegs where
  hpos : BitVec 16
  vpos : BitVec 16
  hsize : BitVec 16
  vsize : BitVec 16
  stretch : BitVec 16
  tilt : BitVec 16
deriving DecidableEq, Repr, Inhabited

/-- One of "both sides of the pair" of a collision (R364): the spec does not say where a side is stored, so it is an entry of
the collision buffer or a byte of RAM, as the rendering says. Log 12. -/
inductive CollisionSide where
  | entry (slot : Fin 16)
  | byte (addr : Addr)
deriving DecidableEq, Repr, Inhabited

/-- What R364 leaves open of one pixel's collision: which entry "that pen slot" is, the two sides of the pair, and the occupant
that the updated slot holds. Log 12. -/
structure Collision where
  slot : Fin 16
  side1 : CollisionSide
  side2 : CollisionSide
  occupant : Byte
deriving DecidableEq, Repr, Inhabited

/-- One write of the sprite engine, in the order it makes them (R361, U8): a non-transparent pixel drawn, with the byte of RAM it
leaves and its collision; or any other byte of RAM. -/
inductive SpriteAction where
  | pixel (addr : Addr) (v : Byte) (hit : Collision)
  | write (addr : Addr) (v : Byte)
deriving DecidableEq, Repr, Inhabited

/-- The action draws a pixel. -/
def SpriteAction.isPixel : SpriteAction → Bool
  | .pixel _ _ _ => true
  | .write _ _ => false

/-- What rendering one sprite does (R361): its writes in order, the persistent registers it leaves, and how many bytes it read
of the SCB and of the tile data. The collision buffer changes by the pixels' collisions only (R364). -/
structure SpriteResult where
  actions : List SpriteAction
  regs : SpriteRegs
  scbBytesRead : Nat
  tileBytesRead : Nat
deriving DecidableEq, Repr, Inhabited

/-- "every SCB read, tile-data byte read, and pixel write is charged" (R361). -/
def SpriteResult.cost (r : SpriteResult) : Nat := r.scbBytesRead + r.tileBytesRead + r.actions.countP SpriteAction.isPixel

/-- `SPRITE_RENDER` (R7, R361, U8): uninterpreted; of RAM, `COLL`, the persistent registers and the SCB's address. R364
constrains what its result does (`Canvas.act`). Log 12. -/
opaque Config.spriteRender : List (Nat × Byte) → Vector Byte 16 → SpriteRegs → Addr → SpriteResult

/-- `SIGNED_DIVIDE` (R7, R367, U5): 32-bit quotient and 32-bit remainder of a signed divide by a nonzero divisor, open; R367
constrains the remainder (`signedQuotient`). Log 11. -/
opaque Config.signedDivide : BitVec 32 → BitVec 16 → BitVec 32 × BitVec 32

/-- `V` after a decimal `ADC` or `SBC` (U2), of the free counter. Log 8. -/
opaque Config.decimalV : Nat → Bool

/-- `A` after a decimal `ADC` or `SBC` on an invalid BCD operand (U3). Log 9. -/
opaque Config.invalidBcdA : Nat → Byte

/-- `C` in that case (U3). -/
opaque Config.invalidBcdC : Nat → Bool

/-- `N` in that case (U3: "All five are free"). -/
opaque Config.invalidBcdN : Nat → Bool

/-- `Z` in that case (U3). -/
opaque Config.invalidBcdZ : Nat → Bool

/-- `MATH_OVERFLOW` after a divide by zero (U4). Log 10. -/
opaque Config.divideByZeroOverflow : Nat → Bool

/-- Whether a sprite chain started with `SCBADR[15:8] = 0` processes its first SCB (U6). Log 13. -/
opaque Config.pageZeroChainRuns : Nat → Bool

/-- Bits 19:8 of `ADDRCNT` after a page write of a byte, given the old ones (R380, D42). Log 21. -/
opaque Config.cartPageHigh : Byte → BitVec 12 → BitVec 12

/-- The level of the EEPROM's leading dummy bit (R381). Log 22. -/
opaque Config.eepromDummyBit : Nat → Bool

/-- `FULL` (R373): the factor of a channel whose pan bit is clear. Log 25. -/
opaque Config.mixFull : Nat

/-- `MIX_SCALE` (R373). Log 25. -/
opaque Config.mixScale : Nat

/-- `CPU_RATE` (R373). Log 25. -/
opaque Config.cpuRate : Nat

/-- `SAMPLE_RATE` is 22050 for the Lynx (R7, R373). -/
def Config.sampleRate : Nat := 22050

end Sys2Proof
end

