-- ==== Sys2Proof/Machine/State.lean ====
section
/-! DEFINITION. The state of the machine as plain data (spec/10_state.md), the ways a step can stop, and the state after reset. -/

namespace Sys2Proof.Machine

/-- The six stored flags of `P` (R24, R25). Bits 5 and 4 of the byte have no storage. -/
structure Flags where
  n : Bool
  v : Bool
  d : Bool
  i : Bool
  z : Bool
  c : Bool
deriving DecidableEq, Repr

/-- `RUN`, the stop/wait flag (R28). -/
inductive RunState where
  | running
  | waitingForInterrupt
  | stopped
deriving DecidableEq, Repr

/-- The `kind` of a bus read (R9, D6). It never changes the value returned. -/
inductive ReadKind where
  | execOpCode
  | execOperand
  | read
  | dummyRead
  | stackRead
  | vectorRead
deriving DecidableEq, Repr

/-- The `kind` of a bus write (R9, D6). -/
inductive WriteKind where
  | write
  | stackWrite
deriving DecidableEq, Repr

/-- One cycle of the core as the bus sees it (R9, R11): a read, a write, or an idle cycle. -/
inductive BusEvent where
  | read (kind : ReadKind) (addr : Addr) (value : Byte)
  | write (kind : WriteKind) (addr : Addr) (value : Byte)
  | idle
deriving DecidableEq, Repr

/-- One timer (R33). `DONE` is bit 3 of `ctlb` (R342), `LINKED` is `ctla[2:0] = 7` (R33): neither is stored twice. -/
structure Timer where
  bkup : Byte
  ctla : Byte
  cnt : Byte
  ctlb : Byte
  last : Nat
deriving DecidableEq, Repr

/-- The video block (R35). `ARGB` is a function of the palette bytes and not stored. `fb` lists the frame-buffer words that
differ from `0xFF000000`, keyed by `line * 160 + column`. -/
structure Video where
  palG : Vector Byte 16
  palBR : Vector Byte 16
  dispctl : Byte
  dispadr : Addr
  scanline : Nat
  frames : BitVec 32
  fb : List (Nat × BitVec 32)
deriving DecidableEq, Repr

/-- The sprite engine, math unit and input latches (R36): the 14 math bytes under the names of R360. -/
structure Suzy where
  scbadr : Addr
  regs : SpriteRegs
  mathA : Byte
  mathB : Byte
  mathC : Byte
  mathD : Byte
  mathE : Byte
  mathF : Byte
  mathG : Byte
  mathH : Byte
  mathJ : Byte
  mathK : Byte
  mathL : Byte
  mathM : Byte
  mathN : Byte
  mathP : Byte
  signed : Bool
  accumulate : Bool
  mathOverflow : Bool
  busy : Bool
  coll : Vector Byte 16
  joystick : Byte
  switches : Byte
  stall : Nat
  stallTotal : Nat
deriving DecidableEq, Repr

/-- One audio channel (R37). `TAPS`, `ENABLED` and `INTEGRATE` are functions of `feedback` and `ctl` (R370) and not stored. -/
structure Channel where
  vol : Byte
  feedback : Byte
  out : Byte
  lfsr : BitVec 12
  bkup : Byte
  ctl : Byte
  cnt : Byte
  atten : Byte
  done : Bool
  last : Nat
deriving DecidableEq, Repr

/-- The audio unit (R37). -/
structure Audio where
  channels : Vector Channel 4
  stereo : Byte
  pan : Byte
deriving DecidableEq, Repr

/-- The cartridge's moving parts (R38); the image and the bank sizes are parameters (R41). -/
structure Cart where
  curBank : Fin 2
  shift : Byte
  addrCnt : BitVec 20
deriving DecidableEq, Repr

/-- EEPROM chip types (R38). -/
inductive EepromChip where
  | none
  | c93c46
  | c93c56
  | c93c66
  | c93c76
  | c93c86
deriving DecidableEq, Repr

/-- Positions of the EEPROM's state machine (R38, R381). -/
inductive EepromPhase where
  | idle
  | receivingOpcode
  | receivingAddress
  | receivingData
  | sendingData
deriving DecidableEq, Repr

/-- The EEPROM (R38, R381). `cells` lists the words that differ from the erased value `0xFFFF`. -/
structure Eeprom where
  chip : EepromChip
  phase : EepromPhase
  opcode : BitVec 3
  address : BitVec 10
  data : BitVec 16
  bitCount : Nat
  writeEnabled : Bool
  chipSelect : Bool
  dataOut : Bool
  cells : List (Nat × BitVec 16)
deriving DecidableEq, Repr

/-- The whole machine (R20 to R38), with the parameters that never change (R7, R41) and two fields of the model's own:
`freeCtr` numbers the free values (log 7), `bus` records the bus events of the latest step or reset, newest first (log 14). -/
structure State where
  a : Byte
  x : Byte
  y : Byte
  /-- `S`, the stack pointer. -/
  sp : Byte
  pc : Addr
  p : Flags
  cyc : Nat
  run : RunState
  irqLine : Bool
  nmiLine : Bool
  nmiPending : Bool
  mapctl : Byte
  ram : List Host.Cell
  timers : Vector Timer 8
  pending : Byte
  video : Video
  suzy : Suzy
  audio : Audio
  cart : Cart
  eeprom : Eeprom
  params : Params
  freeCtr : Nat
  bus : List BusEvent
deriving DecidableEq, Repr

/-- How a step fails. -/
inductive Fault where
  /-- R273, R330: an undefined opcode byte in strict mode. Raised by the meanings of `NOP1`, `NOP2`, `NOP3` and by nothing else.
  `left` is the state the failing step leaves (R273: `PC` and `CYC` one further, nothing else changed). Safe: the spec
  reports this fault. -/
  | unknownOpcode (op : Byte) (left : State)
deriving DecidableEq, Repr

/-- Why the model refuses an instruction. -/
inductive Refusal where
  /-- Raised by an arm of `exec` that has no meaning yet; safe. No arm is left that raises it. -/
  | notModelled (mnemonic : String)
deriving DecidableEq, Repr

/-- `A <- v` (R20). -/
def State.setA (s : State) (v : Byte) : State := { s with a := v }

/-- `X <- v` (R21). -/
def State.setX (s : State) (v : Byte) : State := { s with x := v }

/-- `Y <- v` (R21). -/
def State.setY (s : State) (v : Byte) : State := { s with y := v }

/-- `S <- v` (R22). -/
def State.setSp (s : State) (v : Byte) : State := { s with sp := v }

/-- `PC <- v` (R23). -/
def State.setPc (s : State) (v : Addr) : State := { s with pc := v }

/-- The six flags at once (R25). -/
def State.setP (s : State) (f : Flags) : State := { s with p := f }

/-- `RUN <- r` (R28). -/
def State.setRun (s : State) (r : RunState) : State := { s with run := r }

/-- RAM as a whole (R32). -/
def State.setRam (s : State) (m : List Host.Cell) : State := { s with ram := m }

/-- `IRQ_LINE <- b` (R29: `set_irq_line`). -/
def State.setIrqLine (s : State) (b : Bool) : State := { s with irqLine := b }

/-- Timer `n` (R33). -/
def State.setTimer (s : State) (n : Fin 8) (t : Timer) : State := { s with timers := s.timers.set n t }

/-- The video block (R35). -/
def State.setVideo (s : State) (v : Video) : State := { s with video := v }

/-- Suzy (R36). -/
def State.setSuzy (s : State) (v : Suzy) : State := { s with suzy := v }

/-- Audio channel `c` (R37). -/
def State.setChannel (s : State) (c : Fin 4) (ch : Channel) : State :=
  { s with audio := { s.audio with channels := s.audio.channels.set c ch } }

/-- The cartridge (R38). -/
def State.setCart (s : State) (v : Cart) : State := { s with cart := v }

/-- The EEPROM (R38). -/
def State.setEeprom (s : State) (v : Eeprom) : State := { s with eeprom := v }

/-- One more free value has been used (log 7). -/
def State.bumpFree (s : State) : State := { s with freeCtr := s.freeCtr + 1 }

/-- One cycle (R9): `CYC <- CYC + 1`, with the event recorded. -/
def State.cycle (s : State) (e : BusEvent) : State := { s with cyc := s.cyc + 1, bus := e :: s.bus }

/-- A timer after reset (R45, R403), its period starting at cycle `now`. -/
def Timer.afterReset (now : Nat) : Timer := { bkup := 0, ctla := 0, cnt := 0, ctlb := 0, last := now }

/-- An audio channel after reset (R45, R403). -/
def Channel.afterReset (now : Nat) : Channel :=
  { vol := 0, feedback := 0, out := 0, lfsr := 0, bkup := 0, ctl := 0, cnt := 0, atten := 0, done := false, last := now }

/-- Suzy after reset (R45, R403), with the inputs and the running total that reset leaves alone. -/
def Suzy.afterReset (joystick switches : Byte) (stallTotal : Nat) : Suzy where
  scbadr := 0
  regs := { hpos := 0, vpos := 0, hsize := 0, vsize := 0, stretch := 0, tilt := 0 }
  mathA := 0
  mathB := 0
  mathC := 0
  mathD := 0
  mathE := 0
  mathF := 0
  mathG := 0
  mathH := 0
  mathJ := 0
  mathK := 0
  mathL := 0
  mathM := 0
  mathN := 0
  mathP := 0
  signed := false
  accumulate := false
  mathOverflow := false
  busy := false
  coll := Vector.replicate 16 0
  joystick := joystick
  switches := switches
  stall := 0
  stallTotal := stallTotal

/-- The EEPROM before anything has been clocked into it: no chip, erased (log 22). -/
def Eeprom.unplugged : Eeprom where
  chip := .none
  phase := .idle
  opcode := 0
  address := 0
  data := 0
  bitCount := 0
  writeEnabled := false
  chipSelect := false
  dataOut := false
  cells := []

/-- The machine right after power-on and reset (R45, R400, R401) with the default parameters and the inputs of
`PowerOnInputs.chosen`: `PC` is the reset vector of the empty ROM image (log 3), `CYC` is `RESET_CYCLES`, the devices are as
R403 says. Machine/Reset.lean has the procedure itself, for any inputs and parameters. -/
def State.reset : State where
  a := PowerOnInputs.chosen.a
  x := PowerOnInputs.chosen.x
  y := PowerOnInputs.chosen.y
  sp := PowerOnInputs.chosen.sp
  pc := 0x0000
  p := { n := false, v := false, d := false, i := true, z := false, c := false }
  cyc := 7
  run := .running
  irqLine := false
  nmiLine := false
  nmiPending := false
  mapctl := 0x00
  ram := []
  timers := Vector.replicate 8 (Timer.afterReset 7)
  pending := 0x00
  video :=
    { palG := Vector.replicate 16 0, palBR := Vector.replicate 16 0, dispctl := 0, dispadr := 0, scanline := 0, frames := 0,
      fb := [] }
  suzy := Suzy.afterReset PowerOnInputs.chosen.joystick PowerOnInputs.chosen.switches 0
  audio := { channels := Vector.replicate 4 (Channel.afterReset 7), stereo := 0, pan := 0 }
  cart := { curBank := 0, shift := 0, addrCnt := 0 }
  eeprom := Eeprom.unplugged
  params := Params.defaults
  freeCtr := 0
  bus := [.read .vectorRead 0xFFFD 0, .read .vectorRead 0xFFFC 0, .idle, .idle, .idle, .idle, .idle]

end Sys2Proof.Machine
end

