-- ==== Sys2Proof/Machine/Memory.lean ====
section
/-! DEFINITION. Sparse memories: a list of (key, value) in one canonical form, keys strictly rising, no entry equal to what an
unlisted key reads as. RAM (spec/10_state.md R32), the ROM image, the frame buffer and the EEPROM cells are held so. -/

namespace Sys2Proof.Machine

/-- What key `k` holds; `d` is what an unlisted key reads as. -/
def Cells.read {α : Type} (d : α) : List (Nat × α) → Nat → α
  | [], _ => d
  | (j, v) :: rest, k => if j = k then v else Cells.read d rest k

/-- Store `v` at `k`, keeping the canonical form. -/
def Cells.write {α : Type} [DecidableEq α] (d : α) : List (Nat × α) → Nat → α → List (Nat × α)
  | [], k, v => if v = d then [] else [(k, v)]
  | (j, w) :: rest, k, v =>
    if k < j then (if v = d then (j, w) :: rest else (k, v) :: (j, w) :: rest)
    else if k = j then (if v = d then rest else (k, v) :: rest)
    else (j, w) :: Cells.write d rest k v

/-- The canonical form, with every key between `lo` and `hi` (not including `hi`). -/
def Cells.wfFrom {α : Type} [DecidableEq α] (d : α) (hi : Nat) : Nat → List (Nat × α) → Bool
  | _, [] => true
  | lo, (j, v) :: rest => decide (lo ≤ j) && decide (j < hi) && decide (v ≠ d) && Cells.wfFrom d hi (j + 1) rest

/-- What a byte of RAM or of the ROM image that nothing has written reads as. DESIGN CHOICE, unsafe (log 2, log 3): the spec
leaves the contents free. -/
def Memory.unlisted : Byte := 0

/-- `RAM[a]` (R32, R56). -/
def Memory.read (m : List Host.Cell) (a : Addr) : Byte := Cells.read Memory.unlisted m a.toNat

/-- `RAM[a] <- v` (R57). -/
def Memory.write (m : List Host.Cell) (a : Addr) (v : Byte) : List Host.Cell := Cells.write Memory.unlisted m a.toNat v

/-- RAM is in its canonical form: addresses strictly rising below 65536, no entry that reads as an unlisted byte. -/
def Memory.wf (m : List Host.Cell) : Bool := Cells.wfFrom Memory.unlisted 65536 0 m

/-- `RAM[a] <- v` on the state. -/
def State.writeRam (s : State) (a : Addr) (v : Byte) : State := s.setRam (Memory.write s.ram a v)

/-- `ROM[off]` (R56). -/
def State.rom (s : State) (off : Nat) : Byte := Cells.read Memory.unlisted s.params.rom off

end Sys2Proof.Machine
end

