-- ==== Sys2Proof/Machine/Audio.lean ====
section
/-! DEFINITION. The four audio channels and the mixer (spec/60_exceptions.md R370 to R373). -/

namespace Sys2Proof.Machine

/-- The period `4 << sel` of a clock selector 0 to 6 (R341, R370). -/
def clockPeriod (ctl : Byte) : Nat := 4 <<< (ctl.extractLsb' 0 3).toNat

/-- The clock selector is 7: clocked by the predecessor's underflow (R341, R370). -/
def clockLinked (ctl : Byte) : Bool := ctl.extractLsb' 0 3 == 7

/-- Bit 3: counting is enabled (R341, R370). -/
def clockEnabled (ctl : Byte) : Bool := ctl.getLsbD 3

/-- The XOR of the selected taps 0,1,2,3,4,5,7,10 (R372), selected by bits 0 to 7 of `FEEDBACK` in that order (R370). -/
def Channel.tapXor (c : Channel) : Bool :=
  ((([0, 1, 2, 3, 4, 5, 7, 10].zip [0, 1, 2, 3, 4, 5, 6, 7]).map
    fun t => c.feedback.getLsbD t.2 && c.lfsr.getLsbD t.1).foldl xor false)

/-- `clamp(x, -128, 127)` as a byte (R372). -/
def clampByte (x : Int) : Byte := BitVec.ofInt 8 (max (-128) (min 127 x))

/-- One LFSR clock (R372). -/
def Channel.clockLfsr (c : Channel) : Channel :=
  let lfsr := BitVec.ofBool c.tapXor ++ c.lfsr.extractLsb' 1 11
  let d : Int := if lfsr.getLsbD 0 then c.vol.toInt else -c.vol.toInt
  let out := if c.ctl.getLsbD 5 then clampByte (c.out.toInt + d) else clampByte d
  { c with lfsr := lfsr, out := out }

/-- What an underflow does to the channel itself (R371): done, reload, LFSR clock. -/
def Channel.underflow (c : Channel) : Channel := { c with done := true, cnt := c.bkup }.clockLfsr

/-- Decrement channel `c`; an underflow cascades to channel `c + 1` when that is enabled and linked (R371). `fuel` bounds the
length of the chain, which is at most 4. -/
def decrementChannel : Nat → Fin 4 → State → State
  | 0, _, s => s
  | fuel + 1, c, s =>
    let ch := s.audio.channels[c]
    if ch.cnt ≠ 0 then s.setChannel c { ch with cnt := ch.cnt - 1 }
    else
      let s1 := s.setChannel c ch.underflow
      if h : c.val + 1 < 4 then
        let next : Fin 4 := ⟨c.val + 1, h⟩
        if clockEnabled s1.audio.channels[next].ctl && clockLinked s1.audio.channels[next].ctl then
          decrementChannel fuel next s1
        else s1
      else s1

/-- `AudioCascade(c)` (R371): decrement the channel if it is enabled and linked. -/
def audioCascade (c : Fin 4) (s : State) : State :=
  if clockEnabled s.audio.channels[c].ctl && clockLinked s.audio.channels[c].ctl then decrementChannel 4 c s else s

/-- One elapsed period of a prescaled channel (R371, R343). -/
def advanceChannel (c : Fin 4) (s : State) : State :=
  let ch := s.audio.channels[c]
  decrementChannel 4 c (s.setChannel c { ch with last := ch.last + clockPeriod ch.ctl })

/-- Channel `c` caught up to cycle `now` (R371, R343). -/
def tickChannel (now : Nat) (s : State) (c : Fin 4) : State :=
  let ch := s.audio.channels[c]
  if clockEnabled ch.ctl && !clockLinked ch.ctl then
    (advanceChannel c)^[(now - ch.last) / clockPeriod ch.ctl] s
  else s.setChannel c { ch with last := now }

/-- `AudioTick(now)` (R371). -/
def audioTick (now : Nat) (s : State) : State := [0, 1, 2, 3].foldl (tickChannel now) s

/-! ## Mixer: an output, read by no instruction (R373) -/

/-- A channel's share of one side: nothing if its stereo bit disables it, the attenuation nibble's share if its pan bit is
set, full volume otherwise. -/
def Channel.mixed (ch : Channel) (stereoBit panBit : Bool) (nibble : BitVec 4) : Int :=
  if stereoBit then 0 else if panBit then ch.out.toInt * nibble.toNat else ch.out.toInt * Config.mixFull

/-- `clamp(sum * MIX_SCALE, -32768, 32767)` (R373). -/
def clampSample (x : Int) : BitVec 16 := BitVec.ofInt 16 (max (-32768) (min 32767 (x * Config.mixScale)))

/-- The left sample: bit `4 + c` of `STEREO` and `PAN`, high nibble of `ATTENc` (R373). -/
def Audio.left (u : Audio) : BitVec 16 :=
  clampSample (([0, 1, 2, 3] : List (Fin 4)).map fun c =>
    u.channels[c].mixed (u.stereo.getLsbD (4 + c.val)) (u.pan.getLsbD (4 + c.val)) (u.channels[c].atten.extractLsb' 4 4)).sum

/-- The right sample: bit `c` of `STEREO` and `PAN`, low nibble of `ATTENc` (R373). -/
def Audio.right (u : Audio) : BitVec 16 :=
  clampSample (([0, 1, 2, 3] : List (Fin 4)).map fun c =>
    u.channels[c].mixed (u.stereo.getLsbD c.val) (u.pan.getLsbD c.val) (u.channels[c].atten.extractLsb' 0 4)).sum

/-- The CPU cycles per sample, "approximately" (R373). -/
def samplePeriod : Nat := Config.cpuRate / Config.sampleRate

end Sys2Proof.Machine
end

