-- ==== Sys2Proof/Machine/Video.lean ====
section
/-! DEFINITION. The video scanline generator and the palette (spec/60_exceptions.md R350 to R354). -/

namespace Sys2Proof.Machine

/-- `expand4(n) = (n << 4) | n` (R351). -/
def expand4 (n : BitVec 4) : Byte := n ++ n

/-- The derived colour `ARGB[i]` (R351, R35): green is the low nibble of `PAL_G[i]`, blue and red the high and low nibble of
`PAL_BR[i]`. -/
def Video.argb (v : Video) (i : Fin 16) : BitVec 32 :=
  (0xFF : Byte) ++ expand4 (v.palBR[i].extractLsb' 0 4) ++ expand4 (v.palG[i].extractLsb' 0 4)
    ++ expand4 (v.palBR[i].extractLsb' 4 4)

/-- The word every frame-buffer location holds at power-on (R45, R400). -/
def black : BitVec 32 := 0xFF000000

/-- Width of the display in pixels (R350). -/
def displayWidth : Nat := 160

/-- Height of the display in lines (R350). -/
def displayHeight : Nat := 102

/-- `bytes_per_line = width / 2` (R350). -/
def bytesPerLine : Nat := displayWidth / 2

/-- The frame-buffer word of a line and column (R35). -/
def Video.pixel (v : Video) (line column : Nat) : BitVec 32 := Cells.read black v.fb (line * displayWidth + column)

/-- The palette index of a nibble. -/
def pen (n : BitVec 4) : Fin 16 := Fin.ofNat 16 n.toNat

/-- The two pixels of byte `i` of a line, high nibble left (R352). -/
def Video.renderByte (v : Video) (ram : List Host.Cell) (fb : List (Nat × BitVec 32)) (i : Nat) : List (Nat × BitVec 32) :=
  let byte := Memory.read ram (v.dispadr + BitVec.ofNat 16 (v.scanline * bytesPerLine + i))
  let at0 := v.scanline * displayWidth + 2 * i
  Cells.write black (Cells.write black fb at0 (v.argb (pen (byte.extractLsb' 4 4)))) (at0 + 1)
    (v.argb (pen (byte.extractLsb' 0 4)))

/-- The frame buffer after the current line has been drawn (R352). -/
def Video.renderLine (v : Video) (ram : List Host.Cell) : List (Nat × BitVec 32) :=
  (List.range bytesPerLine).foldl (v.renderByte ram) v.fb

/-- R352, on the video block: the line is drawn if the display DMA is enabled and the line exists; then the next line. -/
def Video.horizontal (v : Video) (ram : List Host.Cell) : Video :=
  let fb := if v.dispctl.getLsbD 0 ∧ v.scanline < displayHeight then v.renderLine ram else v.fb
  { v with fb := fb, scanline := v.scanline + 1 }

/-- `HorizontalUnderflow()` (R352). -/
def horizontalUnderflow (s : State) : State := s.setVideo (s.video.horizontal s.ram)

/-- `VerticalUnderflow()` (R353). -/
def verticalUnderflow (s : State) : State :=
  s.setVideo { s.video with scanline := 0, frames := s.video.frames + 1 }

end Sys2Proof.Machine
end

