-- ==== Sys2Proof/Machine/Timers.lean ====
section
/-! DEFINITION. The eight timers, their cascade and the interrupt controller (spec/60_exceptions.md R341 to R347). -/

namespace Sys2Proof.Machine

/-- `ENABLED`: bit `n` is `Tn.CTLA[7]` (10_state.md R34, R347). -/
def enabledMask (ts : Vector Timer 8) : Byte :=
  BitVec.ofBool (ts[7].ctla.getLsbD 7) ++ BitVec.ofBool (ts[6].ctla.getLsbD 7) ++ BitVec.ofBool (ts[5].ctla.getLsbD 7)
    ++ BitVec.ofBool (ts[4].ctla.getLsbD 7) ++ BitVec.ofBool (ts[3].ctla.getLsbD 7) ++ BitVec.ofBool (ts[2].ctla.getLsbD 7)
    ++ BitVec.ofBool (ts[1].ctla.getLsbD 7) ++ BitVec.ofBool (ts[0].ctla.getLsbD 7)

/-- The line is active iff `(PENDING & ENABLED) != 0` (R34, R347). -/
def State.irqAsserted (s : State) : Bool := s.pending &&& enabledMask s.timers != 0

/-- `set_irq_line((PENDING & ENABLED) != 0)` (R347). -/
def recomputeIrq (s : State) : State := s.setIrqLine s.irqAsserted

/-- `PENDING <- v`, with the line recomputed (R346, R347). -/
def setPending (s : State) (v : Byte) : State := recomputeIrq { s with pending := v }

/-- `succ(n)`: the chains 0→2→4 and 1→3→5→7 (R345). -/
def timerSucc (n : Fin 8) : Option (Fin 8) :=
  match n with
  | 0 => some 2
  | 1 => some 3
  | 2 => some 4
  | 3 => some 5
  | 4 => none
  | 5 => some 7
  | 6 => none
  | 7 => none

/-- What an underflow does to the timer itself (R344): done, reload. -/
def Timer.underflow (t : Timer) : Timer := { t with ctlb := t.ctlb ||| 0x08, cnt := t.bkup }

/-- "raise the corresponding IRQ bit if enabled" (R344). -/
def raisePending (n : Fin 8) (s : State) : State :=
  if s.timers[n].ctla.getLsbD 7 then setPending s (s.pending ||| ((1 : Byte) <<< n.val)) else s

/-- The video hook of timer 0 and of timer 2 (R344, R352, R353). -/
def videoHook (n : Fin 8) (s : State) : State :=
  if n = 0 then horizontalUnderflow s else if n = 2 then verticalUnderflow s else s

/-- `Decrement(n)` (R344). `fuel` bounds the length of the chain, which is at most 4 (R345). -/
def decrementTimer : Nat → Fin 8 → State → State
  | 0, _, s => s
  | fuel + 1, n, s =>
    let t := s.timers[n]
    if t.cnt ≠ 0 then s.setTimer n { t with cnt := t.cnt - 1 }
    else
      let s1 := videoHook n (raisePending n (s.setTimer n t.underflow))
      let s2 :=
        match timerSucc n with
        | some m =>
          if clockEnabled s1.timers[m].ctla && clockLinked s1.timers[m].ctla then decrementTimer fuel m s1 else s1
        | none => s1
      if n = 7 then audioCascade 0 s2 else s2

/-- One elapsed period of a prescaled timer (R343). -/
def advanceTimer (n : Fin 8) (s : State) : State :=
  let t := s.timers[n]
  decrementTimer 4 n (s.setTimer n { t with last := t.last + clockPeriod t.ctla })

/-- Timer `n` caught up to cycle `now` (R343): as many whole periods as have elapsed; a stopped or linked timer keeps up
without counting. -/
def tickTimer (now : Nat) (s : State) (n : Fin 8) : State :=
  let t := s.timers[n]
  if clockEnabled t.ctla && !clockLinked t.ctla then
    (advanceTimer n)^[(now - t.last) / clockPeriod t.ctla] s
  else s.setTimer n { t with last := now }

/-- `TimerTick(now)` (R343). -/
def timerTick (now : Nat) (s : State) : State := [0, 1, 2, 3, 4, 5, 6, 7].foldl (tickTimer now) s

end Sys2Proof.Machine
end

