-- ==== Sys2Proof/Machine/Mikey.lean ====
section
/-! DEFINITION. The Mikey register file (spec/60_exceptions.md R340, with R341, R342, R346, R350, R351, R370). -/

namespace Sys2Proof.Machine

/-- The registers of R340's table; `chan c k` is register `k` of audio channel `c` (R370). -/
inductive MikeyReg where
  | timerBkup (n : Fin 8)
  | timerCtla (n : Fin 8)
  | timerCnt (n : Fin 8)
  | timerCtlb (n : Fin 8)
  | chan (c : Fin 4) (k : Fin 8)
  | atten (c : Fin 4)
  | pan
  | stereo
  | intrst
  | intset
  | dispctl
  | dispadrLo
  | dispadrHi
  | green (i : Fin 16)
  | bluered (i : Fin 16)
deriving DecidableEq, Repr

/-- The register at an offset from `0xFD00`; none where R340's table has none. -/
def mikeyReg (off : Byte) : Option MikeyReg :=
  let k := off.toNat
  if k < 0x20 then
    match k % 4 with
    | 0 => some (.timerBkup (Fin.ofNat 8 (k / 4)))
    | 1 => some (.timerCtla (Fin.ofNat 8 (k / 4)))
    | 2 => some (.timerCnt (Fin.ofNat 8 (k / 4)))
    | _ => some (.timerCtlb (Fin.ofNat 8 (k / 4)))
  else if k < 0x40 then some (.chan (Fin.ofNat 4 ((k - 0x20) / 8)) (Fin.ofNat 8 (k % 8)))
  else if k < 0x44 then some (.atten (Fin.ofNat 4 (k % 4)))
  else if k = 0x44 then some .pan
  else if k = 0x50 then some .stereo
  else if k = 0x80 then some .intrst
  else if k = 0x81 then some .intset
  else if k = 0x92 then some .dispctl
  else if k = 0x94 then some .dispadrLo
  else if k = 0x95 then some .dispadrHi
  else if 0xA0 ≤ k ∧ k < 0xB0 then some (.green (Fin.ofNat 16 (k % 16)))
  else if 0xB0 ≤ k ∧ k < 0xC0 then some (.bluered (Fin.ofNat 16 (k % 16)))
  else none

/-- Register `k` of an audio channel as read (R370). -/
def Channel.readReg (ch : Channel) (k : Fin 8) : Byte :=
  match k with
  | 0 => ch.vol
  | 1 => ch.feedback
  | 2 => ch.out
  | 3 => ch.lfsr.extractLsb' 0 8
  | 4 => ch.bkup
  | 5 => ch.ctl
  | 6 => ch.cnt
  | 7 => ch.lfsr.extractLsb' 8 4 ++ BitVec.ofBool ch.done ++ (0 : BitVec 3)

/-- Register `k` of an audio channel written (R370): bit 6 of `CTL` reloads the count at the write. -/
def Channel.writeReg (ch : Channel) (k : Fin 8) (v : Byte) : Channel :=
  match k with
  | 0 => { ch with vol := v }
  | 1 => { ch with feedback := v }
  | 2 => { ch with out := v }
  | 3 => { ch with lfsr := ch.lfsr.extractLsb' 8 4 ++ v }
  | 4 => { ch with bkup := v }
  | 5 => { ch with ctl := v, cnt := if v.getLsbD 6 then ch.bkup else ch.cnt }
  | 6 => { ch with cnt := v }
  | 7 => { ch with lfsr := v.extractLsb' 4 4 ++ ch.lfsr.extractLsb' 0 8, done := v.getLsbD 3 }

/-- What a register reads as; no read has a side effect (R340). -/
def mikeyRegValue (s : State) : MikeyReg → Byte
  | .timerBkup n => s.timers[n].bkup
  | .timerCtla n => s.timers[n].ctla
  | .timerCnt n => s.timers[n].cnt
  | .timerCtlb n => s.timers[n].ctlb
  | .chan c k => s.audio.channels[c].readReg k
  | .atten c => s.audio.channels[c].atten
  | .pan => s.audio.pan
  | .stereo => s.audio.stereo
  | .intrst => s.pending
  | .intset => s.pending
  | .dispctl => s.video.dispctl
  | .dispadrLo => loByte s.video.dispadr
  | .dispadrHi => hiByte s.video.dispadr
  | .green i => s.video.palG[i]
  | .bluered i => s.video.palBR[i]

/-- `TnCTLA` written (R341): stored; bit 6 reloads the count at the write; the line is recomputed. -/
def writeCtla (s : State) (n : Fin 8) (v : Byte) : State :=
  let t := s.timers[n]
  recomputeIrq (s.setTimer n { t with ctla := v, cnt := if v.getLsbD 6 then t.bkup else t.cnt })

/-- What a write does (R340, R341, R342, R346, R350, R351, R370). -/
def mikeyRegWrite (s : State) (v : Byte) : MikeyReg → State
  | .timerBkup n => s.setTimer n { s.timers[n] with bkup := v }
  | .timerCtla n => writeCtla s n v
  | .timerCnt n => s.setTimer n { s.timers[n] with cnt := v }
  | .timerCtlb n => s.setTimer n { s.timers[n] with ctlb := v }
  | .chan c k => s.setChannel c (s.audio.channels[c].writeReg k v)
  | .atten c => s.setChannel c { s.audio.channels[c] with atten := v }
  | .pan => { s with audio := { s.audio with pan := v } }
  | .stereo => { s with audio := { s.audio with stereo := v } }
  | .intrst => setPending s (s.pending &&& ~~~v)
  | .intset => setPending s (s.pending ||| v)
  | .dispctl => s.setVideo { s.video with dispctl := v }
  | .dispadrLo => s.setVideo { s.video with dispadr := withLo s.video.dispadr v }
  | .dispadrHi => s.setVideo { s.video with dispadr := withHi s.video.dispadr v }
  | .green i => s.setVideo { s.video with palG := s.video.palG.set i v }
  | .bluered i => s.setVideo { s.video with palBR := s.video.palBR.set i v }

/-- `MikeyRead(off)`: open bus where there is no register (R340, 20_memory.md R55). -/
def mikeyRead (s : State) (off : Byte) : Byte :=
  match mikeyReg off with
  | some r => mikeyRegValue s r
  | none => 0xFF

/-- `MikeyWrite(off, v)`: discarded where there is no register (R340, R55). -/
def mikeyWrite (off v : Byte) (s : State) : State :=
  match mikeyReg off with
  | some r => mikeyRegWrite s v r
  | none => s

end Sys2Proof.Machine
end

