-- ==== Sys2Proof/Machine/Cart.lean ====
section
/-! DEFINITION. The cartridge address counter (spec/60_exceptions.md R380). -/

namespace Sys2Proof.Machine

/-- The value of `CartRead(b)` (R380): the counter modulo the bank's size, at the bank's offset, 0xFF outside the image. -/
def cartValue (s : State) (b : Fin 2) : Byte :=
  s.params.cart.image.getD
    (s.params.cart.bankOffset[b] + s.cart.addrCnt.toNat % s.params.cart.bankSize[b]) 0xFF

/-- The side effect of `CartRead` (R380): the counter moves on, modulo 2^20. -/
def cartAdvance (s : State) : State := s.setCart { s.cart with addrCnt := s.cart.addrCnt + 1 }

/-- `CartSetPage(b, v)` (R380): the current bank is set and the high part of the counter loaded, its low byte unaffected. Which
bits the high part takes from `v` is not stated (log 21). No register reaches this operation (D42). -/
def cartSetPage (b : Fin 2) (v : Byte) (s : State) : State :=
  s.setCart
    { s.cart with
      curBank := b
      addrCnt := Config.cartPageHigh v (s.cart.addrCnt.extractLsb' 8 12) ++ s.cart.addrCnt.extractLsb' 0 8 }

end Sys2Proof.Machine
end

