-- ==== Sys2Proof/Machine/Suzy.lean ====
section
/-! DEFINITION. The math unit and the sprite engine (spec/60_exceptions.md R361 to R368). -/

namespace Sys2Proof.Machine

/-- `AB` (R360): the first factor. -/
def Suzy.ab (z : Suzy) : BitVec 16 := pair z.mathA z.mathB

/-- `CD` (R360): the second factor. -/
def Suzy.cd (z : Suzy) : BitVec 16 := pair z.mathC z.mathD

/-- `ABCD` (R366): the quotient. -/
def Suzy.abcd (z : Suzy) : BitVec 32 := quad z.mathA z.mathB z.mathC z.mathD

/-- `EFGH` (R360): the product, and the dividend. -/
def Suzy.efgh (z : Suzy) : BitVec 32 := quad z.mathE z.mathF z.mathG z.mathH

/-- `JKLM` (R360): the accumulator, and the remainder. -/
def Suzy.jklm (z : Suzy) : BitVec 32 := quad z.mathJ z.mathK z.mathL z.mathM

/-- `NP` (R360): the divisor. -/
def Suzy.np (z : Suzy) : BitVec 16 := pair z.mathN z.mathP

/-- `ABCD <- w`. -/
def Suzy.setAbcd (z : Suzy) (w : BitVec 32) : Suzy :=
  { z with mathA := byteOf w 3, mathB := byteOf w 2, mathC := byteOf w 1, mathD := byteOf w 0 }

/-- `EFGH <- w`. -/
def Suzy.setEfgh (z : Suzy) (w : BitVec 32) : Suzy :=
  { z with mathE := byteOf w 3, mathF := byteOf w 2, mathG := byteOf w 1, mathH := byteOf w 0 }

/-- `JKLM <- w`. -/
def Suzy.setJklm (z : Suzy) (w : BitVec 32) : Suzy :=
  { z with mathJ := byteOf w 3, mathK := byteOf w 2, mathL := byteOf w 1, mathM := byteOf w 0 }

/-- `SignMag(v)` (R367): is the operand negative, and its magnitude modulo 65536. -/
def signMag (test : MathSignTest) (v : BitVec 16) : Bool × BitVec 16 :=
  let neg :=
    match test with
    | .bit15 => v.getLsbD 15
    | .minusOneBit15 => (v - 1).getLsbD 15
  (neg, if neg then -v else v)

/-- The product of two 16-bit factors in 32 bits (R365). -/
def wideProduct (g1 g2 : BitVec 16) : BitVec 32 := g1.setWidth 32 * g2.setWidth 32

/-- The product of R365: of the magnitudes and negated when the signs differ, or plain. -/
def mathProduct (test : MathSignTest) (signed : Bool) (a b : BitVec 16) : BitVec 32 :=
  if signed then
    let m1 := signMag test a
    let m2 := signMag test b
    if m1.1 != m2.1 then -(wideProduct m1.2 m2.2) else wideProduct m1.2 m2.2
  else wideProduct a b

/-- `DoMultiply()` (R365, R368). -/
def Suzy.doMultiply (test : MathSignTest) (z : Suzy) : Suzy :=
  let prod := mathProduct test z.signed z.ab z.cd
  let z1 := { z.setEfgh prod with mathOverflow := false }
  if z.accumulate then
    let sum := z.jklm.toNat + prod.toNat
    { z1.setJklm (BitVec.ofNat 32 sum) with mathOverflow := decide (2 ^ 32 ≤ sum) }
  else z1

/-- The remainders of an unsigned division that R367's sentence can mean: of the operands as they stand, or with either or both
replaced by its magnitude (which both sign tests agree on). DEDUCED, log 11. For non-negative operands all are one. -/
def unsignedRemainders (n : BitVec 32) (d : BitVec 16) : List (BitVec 32) :=
  [n % d.setWidth 32, n.abs % d.setWidth 32, n % d.abs.setWidth 32, n.abs % d.abs.setWidth 32]

/-- The signed divide (R367, U5): the open parameter `SIGNED_DIVIDE`, held to R367's one sentence, that "the remainder of a signed
divide is left as the unsigned-division remainder": a remainder that is none counts as that of the operands (log 11). -/
def signedQuotient (n : BitVec 32) (d : BitVec 16) : BitVec 32 × BitVec 32 :=
  let qr := Config.signedDivide n d
  (qr.1, if qr.2 ∈ unsignedRemainders n d then qr.2 else n % d.setWidth 32)

/-- Quotient and remainder of a divide by a nonzero divisor (R366): unsigned, or the parameter `SIGNED_DIVIDE` (U5). -/
def mathQuotient (signed : Bool) (n : BitVec 32) (d : BitVec 16) : BitVec 32 × BitVec 32 :=
  if signed then signedQuotient n d else (n / d.setWidth 32, n % d.setWidth 32)

/-- `DoDivide()` (R366, R368). After a divide by zero the overflow flag is the free value `free` (U4). -/
def Suzy.doDivide (free : Bool) (z : Suzy) : Suzy :=
  if z.np = 0 then { (z.setAbcd 0).setJklm 0 with mathOverflow := free }
  else
    let qr := mathQuotient z.signed z.efgh z.np
    { (z.setAbcd qr.1).setJklm qr.2 with mathOverflow := false }

/-- The multiply on the state. -/
def multiply (s : State) : State := s.setSuzy (s.suzy.doMultiply s.params.mathSignTest)

/-- The divide on the state; a divide by zero uses one free value. -/
def divide (s : State) : State :=
  let s1 := s.setSuzy (s.suzy.doDivide (Config.divideByZeroOverflow s.freeCtr))
  if s.suzy.np = 0 then s1.bumpFree else s1

/-- `scb.next`: the word at offsets 3 and 4 of the SCB, low byte first (R362). DESIGN CHOICE, unsafe (log 32): the offsets wrap
modulo 65536 in an SCB at the top of memory, where the spec says only `RAM[addr ..]`. -/
def nextScb (ram : List Host.Cell) (addr : Addr) : Addr :=
  pair (Memory.read ram (addr + 4)) (Memory.read ram (addr + 3))

/-- The collision number: the low 4 bits at offset 2 of the SCB (R362); the offset wraps as in `nextScb` (log 32). -/
def collisionNumber (ram : List Host.Cell) (addr : Addr) : BitVec 4 := (Memory.read ram (addr + 2)).extractLsb' 0 4

/-- What the sprite engine writes while it renders: RAM and the collision buffer (R361, R69). -/
structure Canvas where
  ram : List Host.Cell
  coll : Vector Byte 16
deriving DecidableEq, Repr

/-- `RAM[a] <- v`. -/
def Canvas.store (c : Canvas) (a : Addr) (v : Byte) : Canvas := { c with ram := Memory.write c.ram a v }

/-- An occupant is OR'd into one side of the pair (R364). -/
def Canvas.orInto (prev : Byte) (c : Canvas) : CollisionSide → Canvas
  | .entry i => { c with coll := c.coll.set i (c.coll[i] ||| prev) }
  | .byte a => c.store a (Memory.read c.ram a ||| prev)

/-- The collision of one pixel (R364): "the previous occupant of the collision buffer at that pen slot is OR'd into both sides of
the pair and the slot is updated", in that order. -/
def Canvas.collide (h : Collision) (c : Canvas) : Canvas :=
  let prev := c.coll[h.slot]
  let c1 := (c.orInto prev h.side1).orInto prev h.side2
  { c1 with coll := c1.coll.set h.slot h.occupant }

/-- One write of a sprite whose collision number is `number`: a pixel collides when the number is not zero (R364). -/
def Canvas.act (number : BitVec 4) (c : Canvas) : SpriteAction → Canvas
  | .write a v => c.store a v
  | .pixel a v h => if number = 0 then c.store a v else (c.store a v).collide h

/-- One SCB processed: `SPRITE_RENDER`, its writes with their collisions, and its cost (R361, R364). -/
def renderSprite (addr : Addr) (s : State) : State :=
  let r := Config.spriteRender s.ram s.suzy.coll s.suzy.regs addr
  let c := r.actions.foldl (Canvas.act (collisionNumber s.ram addr)) { ram := s.ram, coll := s.suzy.coll }
  (s.setRam c.ram).setSuzy { s.suzy with coll := c.coll, regs := r.regs, stall := s.suzy.stall + r.cost }

/-- The walk along the chain (R361, R363): the SCB is read, then rendered; a next pointer in page 0 ends the chain, and so does
the cap, which `left` counts down. -/
def walkChain : Nat → Addr → State → State
  | 0, _, s => s
  | left + 1, addr, s =>
    let next := nextScb s.ram addr
    let s1 := renderSprite addr s
    if hiByte next = 0 then s1 else walkChain left next s1

/-- The safety cap (R363). -/
def spriteCap : Nat := 256

/-- `CYC <- CYC + STALL; STALL_TOTAL <- STALL_TOTAL + STALL; BUSY <- 0` (R361). -/
def chargeStall (s : State) : State :=
  { s with
    cyc := s.cyc + s.suzy.stall
    suzy := { s.suzy with stallTotal := s.suzy.stallTotal + s.suzy.stall, busy := false } }

/-- Whether the first SCB is processed: always, but for a start with `SCBADR` in page 0, where the spec does not say (U6). -/
def firstScbRuns (s : State) : Bool := hiByte s.suzy.scbadr != 0 || Config.pageZeroChainRuns s.freeCtr

/-- `StartSpriteEngine()` (R361). -/
def startSpriteEngine (s : State) : State :=
  let s0 := s.setSuzy { s.suzy with busy := true, stall := 0 }
  let s1 := if hiByte s.suzy.scbadr = 0 then s0.bumpFree else s0
  chargeStall (if firstScbRuns s then walkChain spriteCap s.suzy.scbadr s1 else s1)

end Sys2Proof.Machine
end

