-- ==== Sys2Proof/Machine/SuzyRegs.lean ====
section
/-! DEFINITION. The Suzy register file (spec/60_exceptions.md R360, R369). -/

namespace Sys2Proof.Machine

/-- The math bytes of R360. -/
inductive MathByte where
  | a | b | c | d | e | f | g | h | j | k | l | m | n | p
deriving DecidableEq, Repr

/-- The 16-bit registers of R360 that are read and stored by bytes. -/
inductive SuzyWord where
  | scbadr | hpos | vpos | hsize | vsize | stretch | tilt
deriving DecidableEq, Repr

/-- The registers of R360's table. -/
inductive SuzyReg where
  | wordLo (w : SuzyWord)
  | wordHi (w : SuzyWord)
  | math (r : MathByte)
  | sprgo
  | sprsys
  | joystick
  | switches
  | rcart (b : Fin 2)
deriving DecidableEq, Repr

/-- The register at an offset from `0xFC00`; none where R360's table has none. -/
def suzyReg (off : Byte) : Option SuzyReg :=
  match off.toNat with
  | 0x10 => some (.wordLo .scbadr)
  | 0x11 => some (.wordHi .scbadr)
  | 0x14 => some (.wordLo .hpos)
  | 0x15 => some (.wordHi .hpos)
  | 0x16 => some (.wordLo .vpos)
  | 0x17 => some (.wordHi .vpos)
  | 0x18 => some (.wordLo .hsize)
  | 0x19 => some (.wordHi .hsize)
  | 0x1A => some (.wordLo .vsize)
  | 0x1B => some (.wordHi .vsize)
  | 0x1C => some (.wordLo .stretch)
  | 0x1D => some (.wordHi .stretch)
  | 0x1E => some (.wordLo .tilt)
  | 0x1F => some (.wordHi .tilt)
  | 0x52 => some (.math .d)
  | 0x53 => some (.math .c)
  | 0x54 => some (.math .b)
  | 0x55 => some (.math .a)
  | 0x56 => some (.math .p)
  | 0x57 => some (.math .n)
  | 0x60 => some (.math .h)
  | 0x61 => some (.math .g)
  | 0x62 => some (.math .f)
  | 0x63 => some (.math .e)
  | 0x6C => some (.math .m)
  | 0x6D => some (.math .l)
  | 0x6E => some (.math .k)
  | 0x6F => some (.math .j)
  | 0x91 => some .sprgo
  | 0x92 => some .sprsys
  | 0xB0 => some .joystick
  | 0xB1 => some .switches
  | 0xB2 => some (.rcart 0)
  | 0xB3 => some (.rcart 1)
  | _ => none

/-- A 16-bit register. -/
def Suzy.word (z : Suzy) : SuzyWord → Addr
  | .scbadr => z.scbadr
  | .hpos => z.regs.hpos
  | .vpos => z.regs.vpos
  | .hsize => z.regs.hsize
  | .vsize => z.regs.vsize
  | .stretch => z.regs.stretch
  | .tilt => z.regs.tilt

/-- A 16-bit register stored. -/
def Suzy.setWord (z : Suzy) (v : Addr) : SuzyWord → Suzy
  | .scbadr => { z with scbadr := v }
  | .hpos => { z with regs := { z.regs with hpos := v } }
  | .vpos => { z with regs := { z.regs with vpos := v } }
  | .hsize => { z with regs := { z.regs with hsize := v } }
  | .vsize => { z with regs := { z.regs with vsize := v } }
  | .stretch => { z with regs := { z.regs with stretch := v } }
  | .tilt => { z with regs := { z.regs with tilt := v } }

/-- A math byte. -/
def Suzy.mathByte (z : Suzy) : MathByte → Byte
  | .a => z.mathA
  | .b => z.mathB
  | .c => z.mathC
  | .d => z.mathD
  | .e => z.mathE
  | .f => z.mathF
  | .g => z.mathG
  | .h => z.mathH
  | .j => z.mathJ
  | .k => z.mathK
  | .l => z.mathL
  | .m => z.mathM
  | .n => z.mathN
  | .p => z.mathP

/-- A math byte stored. -/
def Suzy.setMathByte (z : Suzy) (v : Byte) : MathByte → Suzy
  | .a => { z with mathA := v }
  | .b => { z with mathB := v }
  | .c => { z with mathC := v }
  | .d => { z with mathD := v }
  | .e => { z with mathE := v }
  | .f => { z with mathF := v }
  | .g => { z with mathG := v }
  | .h => { z with mathH := v }
  | .j => { z with mathJ := v }
  | .k => { z with mathK := v }
  | .l => { z with mathL := v }
  | .m => { z with mathM := v }
  | .n => { z with mathN := v }
  | .p => { z with mathP := v }

/-- `SPRSYS` as read: `{0, MATH_OVERFLOW, 0, 0, 0, 0, 0, BUSY}` (R360). -/
def Suzy.sprsys (z : Suzy) : Byte :=
  (0 : BitVec 1) ++ BitVec.ofBool z.mathOverflow ++ (0 : BitVec 5) ++ BitVec.ofBool z.busy

/-- What a register reads as (R360, R369). -/
def suzyRegValue (s : State) : SuzyReg → Byte
  | .wordLo w => loByte (s.suzy.word w)
  | .wordHi w => hiByte (s.suzy.word w)
  | .math r => s.suzy.mathByte r
  | .sprgo => 0xFF
  | .sprsys => s.suzy.sprsys
  | .joystick => s.suzy.joystick
  | .switches => s.suzy.switches
  | .rcart b => cartValue s b

/-- The side effect of a read: only the cartridge data ports have one (R360, R380). DEDUCED (log 33): spec/93 U13 says that no
register read has one and U16 that no register reaches the cartridge's data path; the rules R360, R380 and R414 are followed. -/
def suzyRegReadEffect (s : State) : SuzyReg → State
  | .rcart _ => cartAdvance s
  | .wordLo _ | .wordHi _ | .math _ | .sprgo | .sprsys | .joystick | .switches => s

/-- A math byte written: `MATHA` then multiplies, `MATHE` then divides (R360). -/
def writeMath (s : State) (v : Byte) (r : MathByte) : State :=
  let s1 := s.setSuzy (s.suzy.setMathByte v r)
  match r with
  | .a => multiply s1
  | .e => divide s1
  | .b | .c | .d | .f | .g | .h | .j | .k | .l | .m | .n | .p => s1

/-- What a write does (R360); the read-only registers discard it. -/
def suzyRegWrite (s : State) (v : Byte) : SuzyReg → State
  | .wordLo w => s.setSuzy (s.suzy.setWord (withLo (s.suzy.word w) v) w)
  | .wordHi w => s.setSuzy (s.suzy.setWord (withHi (s.suzy.word w) v) w)
  | .math r => writeMath s v r
  | .sprgo => if v.getLsbD 0 then startSpriteEngine s else s
  | .sprsys => s.setSuzy { s.suzy with signed := v.getLsbD 7, accumulate := v.getLsbD 6 }
  | .joystick | .switches | .rcart _ => s

/-- `SuzyRead(off)`, the value: open bus where there is no register (R360, 20_memory.md R55). -/
def suzyRead (s : State) (off : Byte) : Byte :=
  match suzyReg off with
  | some r => suzyRegValue s r
  | none => 0xFF

/-- `SuzyRead(off)`, the side effect (R58). -/
def suzyReadEffect (off : Byte) (s : State) : State :=
  match suzyReg off with
  | some r => suzyRegReadEffect s r
  | none => s

/-- `SuzyWrite(off, v)`: discarded where there is no register (R360, R55). -/
def suzyWrite (off v : Byte) (s : State) : State :=
  match suzyReg off with
  | some r => suzyRegWrite s v r
  | none => s

end Sys2Proof.Machine
end

