-- ==== Sys2Proof/Machine/Bus.lean ====
section
/-! DEFINITION. The memory bus and the MAPCTL overlay (spec/20_memory.md R50 to R58). -/

namespace Sys2Proof.Machine

/-- What answers an access (R51, R52). -/
inductive Region where
  | mapctl
  | suzy (off : Byte)
  | mikey (off : Byte)
  | rom (off : Nat)
  | ram
deriving DecidableEq, Repr

/-- Decode priority (R52, R56): the first region that matches and is visible. Overlay bits are active-low (R53). -/
def region (mapctl : Byte) (a : Addr) : Region :=
  if a = 0xFFF9 then .mapctl
  else if hiByte a = 0xFC ∧ mapctl.getLsbD 0 = false then .suzy (loByte a)
  else if hiByte a = 0xFD ∧ mapctl.getLsbD 1 = false then .mikey (loByte a)
  else if 0xFE00 ≤ a.toNat ∧ a.toNat ≤ 0xFFF7 ∧ mapctl.getLsbD 2 = false then .rom (a.toNat - 0xFE00)
  else if 0xFFFA ≤ a.toNat ∧ mapctl.getLsbD 3 = false then .rom (a.toNat - 0xFE00)
  else .ram

/-- `Peek(addr)` (R58): the value `MemRead` would return, with no change of state. -/
def peek (s : State) (a : Addr) : Byte :=
  match region s.mapctl a with
  | .mapctl => s.mapctl
  | .suzy off => suzyRead s off
  | .mikey off => mikeyRead s off
  | .rom off => s.rom off
  | .ram => Memory.read s.ram a

/-- The side effect of a read (R58). -/
def readEffect (a : Addr) (s : State) : State :=
  match region s.mapctl a with
  | .suzy off => suzyReadEffect off s
  | .mapctl | .mikey _ | .rom _ | .ram => s

/-- The state after `MemRead(a, 1, kind)` (R56, 00_scope.md R9). -/
def afterRead (kind : ReadKind) (a : Addr) (s : State) : State :=
  readEffect a (s.cycle (.read kind a (peek s a)))

/-- `MemRead(a, 1, kind)` (R56): the value and the state after. -/
def memRead (kind : ReadKind) (a : Addr) (s : State) : Byte × State := (peek s a, afterRead kind a s)

/-- Where a write goes (R57). -/
def busStore (a : Addr) (v : Byte) (s : State) : State :=
  match region s.mapctl a with
  | .mapctl => { s with mapctl := v }
  | .suzy off => suzyWrite off v s
  | .mikey off => mikeyWrite off v s
  | .rom _ => if s.params.romWriteThrough then s.writeRam a v else s
  | .ram => s.writeRam a v

/-- `MemWrite(a, 1, v, kind)` (R57). -/
def memWrite (kind : WriteKind) (a : Addr) (v : Byte) (s : State) : State :=
  busStore a v (s.cycle (.write kind a v))

/-- `Idle()` (00_scope.md R9). -/
def idle (s : State) : State := s.cycle .idle

/-- `Dummy(a)` (00_scope.md R9): a real read, its value discarded. -/
def dummyRead (a : Addr) (s : State) : State := afterRead .dummyRead a s

end Sys2Proof.Machine
end

