-- ==== Sys2Proof/Machine/Flags.lean ====
section
/-! DEFINITION. The status byte and every flag computation (spec/10_state.md R24, R25; spec/42_alu.md; spec/43). -/

namespace Sys2Proof.Machine

/-- The byte view of `P` with bit 4 as given: `{N, V, 1, B, D, I, Z, C}` (R24, R25). -/
def Flags.statusByte (b : Bool) (p : Flags) : Byte :=
  BitVec.ofBool p.n ++ BitVec.ofBool p.v ++ BitVec.ofBool true ++ BitVec.ofBool b
    ++ BitVec.ofBool p.d ++ BitVec.ofBool p.i ++ BitVec.ofBool p.z ++ BitVec.ofBool p.c

/-- `get_processor_status()` (R25): `B` reads 0. -/
def Flags.getStatus (p : Flags) : Byte := p.statusByte false

/-- `set_processor_status(v)` (R25): bits 5 and 4 are discarded. -/
def Flags.setStatus (v : Byte) : Flags where
  n := v.getLsbD 7
  v := v.getLsbD 6
  d := v.getLsbD 3
  i := v.getLsbD 2
  z := v.getLsbD 1
  c := v.getLsbD 0

/-- `SetNZ(v)` (00_scope.md R9). -/
def Flags.setNZ (p : Flags) (v : Byte) : Flags := { p with n := v.getLsbD 7, z := decide (v = 0) }

/-- A carry as a number. -/
def carry (c : Bool) : Nat := c.toNat

/-- `AddBin(a, m, c)` (R170): the sum byte and the flags `C V N Z`. -/
def addBin (a m : Byte) (p : Flags) : Byte × Flags :=
  let sum := a.toNat + m.toNat + carry p.c
  let r : Byte := BitVec.ofNat 8 sum
  (r, { p.setNZ r with c := decide (256 ≤ sum), v := ((a ^^^ r) &&& (m ^^^ r)).getLsbD 7 })

/-- `SubBin(a, m, c) = AddBin(a, m ^ 0xFF, c)` (R171). -/
def subBin (a m : Byte) (p : Flags) : Byte × Flags := addBin a (m ^^^ 0xFF) p

/-- Both nibbles are decimal digits (R172). -/
def validBcd (b : Byte) : Bool := decide (b.toNat / 16 ≤ 9) && decide (b.toNat % 16 ≤ 9)

/-- `dec(b) = 10*b[7:4] + b[3:0]` (R172). -/
def bcdValue (b : Byte) : Nat := 10 * (b.toNat / 16) + b.toNat % 16

/-- `bcd(n) = {n div 10, n mod 10}` for n in 0..99 (R172). -/
def bcdByte (n : Nat) : Byte := BitVec.ofNat 8 (16 * (n / 10) + n % 10)

/-- The decimal sum (R172): the result byte and the carry. -/
def addDec (a m : Byte) (c : Bool) : Byte × Bool :=
  let n := bcdValue a + bcdValue m + carry c
  (bcdByte (n % 100), decide (100 ≤ n))

/-- The decimal difference (R173): the result byte and the carry, 1 when there is no borrow. -/
def subDec (a m : Byte) (c : Bool) : Byte × Bool :=
  let n : Int := bcdValue a - bcdValue m - (1 - carry c)
  (bcdByte (n % 100).toNat, decide (0 ≤ n))

/-- The flags of a compare (R179): `C` iff `reg >= m` unsigned, `N Z` from the difference. -/
def compareFlags (reg m : Byte) (p : Flags) : Flags := { p.setNZ (reg - m) with c := decide (m.toNat ≤ reg.toNat) }

/-- The flags of `BIT` (R182): `Z` from `A & M`; with a memory operand `N` and `V` from `M`. -/
def bitFlags (memory : Bool) (a m : Byte) (p : Flags) : Flags :=
  if memory then { p with z := decide (a &&& m = 0), n := m.getLsbD 7, v := m.getLsbD 6 }
  else { p with z := decide (a &&& m = 0) }

/-- `TSB` (R183): the byte written and the flags. -/
def tsbByte (a m : Byte) (p : Flags) : Byte × Flags := (m ||| a, { p with z := decide (a &&& m = 0) })

/-- `TRB` (R184): the byte written and the flags. -/
def trbByte (a m : Byte) (p : Flags) : Byte × Flags := (m &&& ~~~a, { p with z := decide (a &&& m = 0) })

/-- `ASL` (R201). -/
def aslByte (m : Byte) (p : Flags) : Byte × Flags :=
  let r := m <<< 1
  (r, { p.setNZ r with c := m.getLsbD 7 })

/-- `LSR` (R202). -/
def lsrByte (m : Byte) (p : Flags) : Byte × Flags :=
  let r := m >>> 1
  (r, { p.setNZ r with c := m.getLsbD 0 })

/-- `ROL` (R203). -/
def rolByte (m : Byte) (p : Flags) : Byte × Flags :=
  let r := m.extractLsb' 0 7 ++ BitVec.ofBool p.c
  (r, { p.setNZ r with c := m.getLsbD 7 })

/-- `ROR` (R204). -/
def rorByte (m : Byte) (p : Flags) : Byte × Flags :=
  let r := BitVec.ofBool p.c ++ m.extractLsb' 1 7
  (r, { p.setNZ r with c := m.getLsbD 0 })

/-- `INC` (R205). -/
def incByte (m : Byte) (p : Flags) : Byte × Flags := (m + 1, p.setNZ (m + 1))

/-- `DEC` (R206). -/
def decByte (m : Byte) (p : Flags) : Byte × Flags := (m - 1, p.setNZ (m - 1))

/-- `RMBn` (46_bitops_optional.md R281): no flag. -/
def rmbByte (n : Nat) (m : Byte) (p : Flags) : Byte × Flags := (m &&& ~~~((1 : Byte) <<< n), p)

/-- `SMBn` (46_bitops_optional.md R282): no flag. -/
def smbByte (n : Nat) (m : Byte) (p : Flags) : Byte × Flags := (m ||| ((1 : Byte) <<< n), p)

end Sys2Proof.Machine
end

