-- ==== Sys2Proof/Machine/Ops.lean ====
section
/-! DEFINITION. The named operations over registers and memory (spec/00_scope.md R9): fetch, push, pull; taking an exception and
returning from one (spec/60_exceptions.md R320 to R323); the boundary of a core step (R301) and the platform's tick (R300). -/

namespace Sys2Proof.Machine

/-- The fetch of an opcode byte (R100): `MemRead(PC, 1, ExecOpCode)`; `PC <- PC + 1`. -/
def fetchOpcode (s : State) : State := (afterRead .execOpCode s.pc s).setPc (s.pc + 1)

/-- `Fetch()` (R9), the state after: the byte itself is in the decoded instruction. -/
def fetchOperand (s : State) : State := (afterRead .execOperand s.pc s).setPc (s.pc + 1)

/-- `SetNZ(v)` on the state (R9). -/
def State.setNZ (s : State) (v : Byte) : State := s.setP (s.p.setNZ v)

/-- `Push(v)` (R9, R22). -/
def push (v : Byte) (s : State) : State := (memWrite .stackWrite (stackAddr s.sp) v s).setSp (s.sp - 1)

/-- `Pull()` (R9, R22). -/
def pull (s : State) : Byte × State :=
  let s1 := s.setSp (s.sp + 1)
  memRead .stackRead (stackAddr s1.sp) s1

/-- `Push(PC[15:8]); Push(PC[7:0])` (R243, R320): the high byte at the higher address. -/
def pushPc (s : State) : State := push (loByte s.pc) (push (hiByte s.pc) s)

/-- `lo <- Pull(); hi <- Pull(); PC <- {hi, lo}` (R244, R245). -/
def pullPc (s : State) : State :=
  let lo := pull s
  let hi := pull lo.2
  hi.2.setPc (pair hi.1 lo.1)

/-- `PC <- {MemRead(vec + 1), MemRead(vec)}`, low byte first (R320, R321). -/
def loadVector (vec : Addr) (s : State) : State :=
  let lo := memRead .vectorRead vec s
  let hi := memRead .vectorRead (vec + 1) lo.2
  hi.2.setPc (pair hi.1 lo.1)

/-- `I <- 1`, and `D <- 0` under `INT_CLEARS_D` (R246, R320, D11). -/
def maskFlags (clearD : Bool) (p : Flags) : Flags := { p with i := true, d := if clearD then false else p.d }

/-- TAKING AN EXCEPTION (R246, R320, R322): `PC` and the status byte with the given `B` are pushed, `I` is set, and `PC` is loaded
from the vector. Shared by `BRK`, IRQ and NMI. -/
def takeException (b : Bool) (vec : Addr) (s : State) : State :=
  let s1 := pushPc s
  let s2 := push (s1.p.statusByte b) s1
  loadVector vec (s2.setP (maskFlags s2.params.intClearsD s2.p))

/-- The NMI vector (R321). -/
def nmiVector : Addr := 0xFFFA

/-- The reset vector (R321). -/
def resetVector : Addr := 0xFFFC

/-- The vector of IRQ and `BRK` (R321). -/
def irqVector : Addr := 0xFFFE

/-- `InterruptEntry(vec)` (R320): two dummy reads at `PC`, then the exception with `B = 0`. -/
def interruptEntry (vec : Addr) (s : State) : State := takeException false vec (dummyRead s.pc (dummyRead s.pc s))

/-- THE RETURN (R245, R323): `P` is pulled, bits 5 and 4 discarded, then `PC`. -/
def returnFromInterrupt (s : State) : State :=
  let v := pull s
  pullPc (v.2.setP (Flags.setStatus v.1))

/-- `set_nmi_line(b)` (R29, R310): a rising edge sets the latch. -/
def setNmiLine (b : Bool) (s : State) : State :=
  { s with nmiPending := if b && !s.nmiLine then true else s.nmiPending, nmiLine := b }

/-- `set_irq_line(b)` (R29). -/
def setIrqLine (b : Bool) (s : State) : State := s.setIrqLine b

/-- What a core step does at its boundary (R301): something that is no instruction, or the execution of one. -/
inductive Boundary where
  | done (s : State)
  | execute
deriving DecidableEq, Repr

/-- The sample at the start of a core step (R301, R312): an idle cycle while stopped or waiting, an interrupt entry, or the
execution of an instruction. -/
def boundary (s : State) : Boundary :=
  match s.run with
  | .stopped => .done (idle s)
  | .waitingForInterrupt =>
    .done (if s.nmiPending || s.irqLine then (idle s).setRun .running else idle s)
  | .running =>
    if s.nmiPending then .done (interruptEntry nmiVector { s with nmiPending := false })
    else if s.irqLine && !s.p.i then .done (interruptEntry irqVector s)
    else .execute

/-- The cycle count the devices are ticked to (R300): with or without the sprite engine's stalls (D21). -/
def deviceTime (s : State) : Nat := if s.params.stallTicksDevices then s.cyc else s.cyc - s.suzy.stallTotal

/-- The devices' part of a platform step (R300): timers, audio, the IRQ line. -/
def platformTick (s : State) : State := recomputeIrq (audioTick (deviceTime s) (timerTick (deviceTime s) s))

/-- A step begins: the record of bus events starts anew (log 14). -/
def beginStep (s : State) : State := { s with bus := [] }

end Sys2Proof.Machine
end

