-- ==== Sys2Proof/Syntax.lean ====
section
/-! DEFINITION. The instructions as terms: one constructor for each mnemonic of spec/opcode_table.json; the operand says which
of the mnemonic's rows (addressing modes) is meant (spec/30_encoding.md R82 to R86). -/

namespace Sys2Proof

/-- An operand in memory: the addressing modes that resolve to an effective address (R104 to R112), with their operand bytes. -/
inductive MemMode where
  /-- R104 -/
  | zp (z : Byte)
  /-- R105 -/
  | zpx (z : Byte)
  /-- R106 -/
  | zpy (z : Byte)
  /-- R107 -/
  | abs (w : Addr)
  /-- R108 -/
  | abx (w : Addr)
  /-- R109 -/
  | aby (w : Addr)
  /-- R110 -/
  | izx (z : Byte)
  /-- R111 -/
  | izy (z : Byte)
  /-- R112 -/
  | izp (z : Byte)
deriving DecidableEq, Repr

/-- The operand of a class R instruction (R117): immediate data (R103) or a byte of memory. -/
inductive Operand where
  | imm (v : Byte)
  | mem (m : MemMode)
deriving DecidableEq, Repr

/-- The operand of a shift, rotate, increment or decrement: the accumulator (R102) or a byte of memory (R200). -/
inductive RmwOperand where
  | acc
  | mem (m : MemMode)
deriving DecidableEq, Repr

/-- The three forms of `JMP` (R240, R241 with R113, R242 with R114). -/
inductive JumpTarget where
  | abs (w : Addr)
  | ind (w : Addr)
  | iax (w : Addr)
deriving DecidableEq, Repr

/-- One constructor for each mnemonic of the opcode table. -/
inductive Instr where
  /-- R130: load accumulator. -/
  | lda (o : Operand)
  /-- R131: load X. -/
  | ldx (o : Operand)
  /-- R132: load Y. -/
  | ldy (o : Operand)
  /-- R133: store accumulator. -/
  | sta (m : MemMode)
  /-- R134: store X. -/
  | stx (m : MemMode)
  /-- R135: store Y. -/
  | sty (m : MemMode)
  /-- R136: store zero. -/
  | stz (m : MemMode)
  /-- R137. -/
  | tax
  /-- R138. -/
  | tay
  /-- R139. -/
  | txa
  /-- R140. -/
  | tya
  /-- R141. -/
  | tsx
  /-- R142. -/
  | txs
  /-- R143. -/
  | pha
  /-- R144. -/
  | phx
  /-- R145. -/
  | phy
  /-- R146. -/
  | php
  /-- R147. -/
  | pla
  /-- R148. -/
  | plx
  /-- R149. -/
  | ply
  /-- R150. -/
  | plp
  /-- R174: add with carry. -/
  | adc (o : Operand)
  /-- R175: subtract with borrow. -/
  | sbc (o : Operand)
  /-- R176. -/
  | and (o : Operand)
  /-- R177. -/
  | ora (o : Operand)
  /-- R178. -/
  | eor (o : Operand)
  /-- R179. -/
  | cmp (o : Operand)
  /-- R180. -/
  | cpx (o : Operand)
  /-- R181. -/
  | cpy (o : Operand)
  /-- R182: test bits. -/
  | bit (o : Operand)
  /-- R183: test and set bits. -/
  | tsb (m : MemMode)
  /-- R184: test and reset bits. -/
  | trb (m : MemMode)
  /-- R201. -/
  | asl (o : RmwOperand)
  /-- R202. -/
  | lsr (o : RmwOperand)
  /-- R203. -/
  | rol (o : RmwOperand)
  /-- R204. -/
  | ror (o : RmwOperand)
  /-- R205. -/
  | inc (o : RmwOperand)
  /-- R206. -/
  | dec (o : RmwOperand)
  /-- R207. -/
  | inx
  /-- R208. -/
  | iny
  /-- R209. -/
  | dex
  /-- R210. -/
  | dey
  /-- R231. -/
  | bcc (off : Byte)
  /-- R232. -/
  | bcs (off : Byte)
  /-- R233. -/
  | beq (off : Byte)
  /-- R234. -/
  | bne (off : Byte)
  /-- R235. -/
  | bmi (off : Byte)
  /-- R236. -/
  | bpl (off : Byte)
  /-- R237. -/
  | bvc (off : Byte)
  /-- R238. -/
  | bvs (off : Byte)
  /-- R239. -/
  | bra (off : Byte)
  /-- R240, R241, R242. -/
  | jmp (t : JumpTarget)
  /-- R243. -/
  | jsr (target : Addr)
  /-- R244. -/
  | rts
  /-- R245. -/
  | rti
  /-- R246: `sig` is the signature byte, fetched and ignored. -/
  | brk (sig : Byte)
  /-- R260. -/
  | clc
  /-- R261. -/
  | sec
  /-- R262. -/
  | cli
  /-- R263. -/
  | sei
  /-- R264. -/
  | cld
  /-- R265. -/
  | sed
  /-- R266. -/
  | clv
  /-- R267. -/
  | nop
  /-- R268. -/
  | wai
  /-- R269. -/
  | stp
  /-- R270: the undefined opcode byte `op` of length 1. -/
  | nop1 (op : Byte)
  /-- R271: the undefined opcode byte `op` of length 2. -/
  | nop2 (op b1 : Byte)
  /-- R272: the undefined opcode byte `op` of length 3. -/
  | nop3 (op : Byte) (w : Addr)
  /-- R281: reset bit 0 (only when `BITOPS`). -/
  | rmb0 (z : Byte)
  /-- R281: reset bit 1 (only when `BITOPS`). -/
  | rmb1 (z : Byte)
  /-- R281: reset bit 2 (only when `BITOPS`). -/
  | rmb2 (z : Byte)
  /-- R281: reset bit 3 (only when `BITOPS`). -/
  | rmb3 (z : Byte)
  /-- R281: reset bit 4 (only when `BITOPS`). -/
  | rmb4 (z : Byte)
  /-- R281: reset bit 5 (only when `BITOPS`). -/
  | rmb5 (z : Byte)
  /-- R281: reset bit 6 (only when `BITOPS`). -/
  | rmb6 (z : Byte)
  /-- R281: reset bit 7 (only when `BITOPS`). -/
  | rmb7 (z : Byte)
  /-- R282: set bit 0 (only when `BITOPS`). -/
  | smb0 (z : Byte)
  /-- R282: set bit 1 (only when `BITOPS`). -/
  | smb1 (z : Byte)
  /-- R282: set bit 2 (only when `BITOPS`). -/
  | smb2 (z : Byte)
  /-- R282: set bit 3 (only when `BITOPS`). -/
  | smb3 (z : Byte)
  /-- R282: set bit 4 (only when `BITOPS`). -/
  | smb4 (z : Byte)
  /-- R282: set bit 5 (only when `BITOPS`). -/
  | smb5 (z : Byte)
  /-- R282: set bit 6 (only when `BITOPS`). -/
  | smb6 (z : Byte)
  /-- R282: set bit 7 (only when `BITOPS`). -/
  | smb7 (z : Byte)
  /-- R283: branch on reset bit 0 (only when `BITOPS`). -/
  | bbr0 (z off : Byte)
  /-- R283: branch on reset bit 1 (only when `BITOPS`). -/
  | bbr1 (z off : Byte)
  /-- R283: branch on reset bit 2 (only when `BITOPS`). -/
  | bbr2 (z off : Byte)
  /-- R283: branch on reset bit 3 (only when `BITOPS`). -/
  | bbr3 (z off : Byte)
  /-- R283: branch on reset bit 4 (only when `BITOPS`). -/
  | bbr4 (z off : Byte)
  /-- R283: branch on reset bit 5 (only when `BITOPS`). -/
  | bbr5 (z off : Byte)
  /-- R283: branch on reset bit 6 (only when `BITOPS`). -/
  | bbr6 (z off : Byte)
  /-- R283: branch on reset bit 7 (only when `BITOPS`). -/
  | bbr7 (z off : Byte)
  /-- R284: branch on set bit 0 (only when `BITOPS`). -/
  | bbs0 (z off : Byte)
  /-- R284: branch on set bit 1 (only when `BITOPS`). -/
  | bbs1 (z off : Byte)
  /-- R284: branch on set bit 2 (only when `BITOPS`). -/
  | bbs2 (z off : Byte)
  /-- R284: branch on set bit 3 (only when `BITOPS`). -/
  | bbs3 (z off : Byte)
  /-- R284: branch on set bit 4 (only when `BITOPS`). -/
  | bbs4 (z off : Byte)
  /-- R284: branch on set bit 5 (only when `BITOPS`). -/
  | bbs5 (z off : Byte)
  /-- R284: branch on set bit 6 (only when `BITOPS`). -/
  | bbs6 (z off : Byte)
  /-- R284: branch on set bit 7 (only when `BITOPS`). -/
  | bbs7 (z off : Byte)
deriving DecidableEq, Repr

end Sys2Proof
end

