-- ==== Sys2Proof/Machine/Operands.lean ====
section
/-! DEFINITION. Every operand form, access by access (spec/40_addressing_modes.md R101 to R119, spec/43 R200). All of them start
from the state after the opcode fetch. -/

namespace Sys2Proof.Machine

/-- Access classes (R117). -/
inductive AccessClass where
  | read
  | write
  | modify
deriving DecidableEq, Repr

/-- The address of an indexed mode's dummy read (R118): the argument is the address of policy `uncarried`, the other is that of the
last instruction byte fetched. -/
def dummyAddr (uncarriedAddr : Addr) (s : State) : Addr :=
  match s.params.dummyPolicy with
  | .uncarried => uncarriedAddr
  | .lastOperandByte => s.pc - 1

/-- The dummy read of an indexed mode (R118). -/
def indexDummy (uncarriedAddr : Addr) (s : State) : State := dummyRead (dummyAddr uncarriedAddr s) s

/-- R108, R111: reads take the dummy read only when the page is crossed, writes and read-modify-writes always (D8). -/
def pageDummy (cls : AccessClass) (w : Addr) (i : Byte) (s : State) : State :=
  if cls != .read || crosses w i then indexDummy (uncarried w i) s else s

/-- A pointer in page 0, read little-endian with wrap inside the page (R110, R111, R112). -/
def readPointer (z : Byte) (s : State) : Addr × State :=
  let lo := memRead .read (zeroPage z) s
  let hi := memRead .read (zeroPage (z + 1)) lo.2
  (pair hi.1 lo.1, hi.2)

/-- A pointer anywhere, its high byte at the next address modulo 65536 (R113, R114). -/
def readPointer16 (w : Addr) (s : State) : Addr × State :=
  let lo := memRead .read w s
  let hi := memRead .read (w + 1) lo.2
  (pair hi.1 lo.1, hi.2)

/-- Absolute indexed by `i` (R108, R109). -/
def absIndexed (cls : AccessClass) (w : Addr) (i : Byte) (s : State) : Addr × State :=
  (indexed w i, pageDummy cls w i (fetchOperand (fetchOperand s)))

/-- `EA_<mode>(class)` (R104 to R112, R117): the effective address and the state after the accesses that resolve it. -/
def resolve (cls : AccessClass) (m : MemMode) (s : State) : Addr × State :=
  match m with
  | .zp z => (zeroPage z, fetchOperand s)
  | .zpx z => (zeroPage (z + s.x), indexDummy (zeroPage z) (fetchOperand s))
  | .zpy z => (zeroPage (z + s.y), indexDummy (zeroPage z) (fetchOperand s))
  | .abs w => (w, fetchOperand (fetchOperand s))
  | .abx w => absIndexed cls w s.x s
  | .aby w => absIndexed cls w s.y s
  | .izx z => readPointer (z + s.x) (indexDummy (zeroPage z) (fetchOperand s))
  | .izy z =>
    let p := readPointer z (fetchOperand s)
    (indexed p.1 s.y, pageDummy cls p.1 s.y p.2)
  | .izp z => readPointer z (fetchOperand s)

/-- The operand of a class R instruction (R103, R117): the byte and the state after. -/
def readOperand (o : Operand) (s : State) : Byte × State :=
  match o with
  | .imm v => (v, fetchOperand s)
  | .mem m =>
    let e := resolve .read m s
    memRead .read e.1 e.2

/-- A class W instruction's store (R117). -/
def storeOperand (m : MemMode) (v : Byte) (s : State) : State :=
  let e := resolve .write m s
  memWrite .write e.1 v e.2

/-- The read-modify-write pattern (R200): read, dummy read, the function with its flags, write. -/
def modifyMemory (m : MemMode) (f : Byte → Flags → Byte × Flags) (s : State) : State :=
  let e := resolve .modify m s
  let old := memRead .read e.1 e.2
  let s1 := dummyRead e.1 old.2
  let r := f old.1 s1.p
  memWrite .write e.1 r.1 (s1.setP r.2)

/-- The implied mode's `Dummy(PC)` (R101, R102). -/
def implied (s : State) : State := dummyRead s.pc s

/-- The accumulator form (R102). -/
def modifyAccumulator (f : Byte → Flags → Byte × Flags) (s : State) : State :=
  let s1 := implied s
  let r := f s1.a s1.p
  (s1.setA r.1).setP r.2

/-- A shift, rotate, increment or decrement on its operand (R102, R200). -/
def modifyOperand (o : RmwOperand) (f : Byte → Flags → Byte × Flags) (s : State) : State :=
  match o with
  | .acc => modifyAccumulator f s
  | .mem m => modifyMemory m f s

/-- A taken branch (R230): the dummy read at the next instruction, the second one when the target is in another page. -/
def takeBranch (off : Byte) (s : State) : State :=
  let target := relative s.pc off
  let s1 := dummyRead s.pc s
  let s2 := if hiByte target = hiByte s.pc then s1 else dummyRead (pair (hiByte s.pc) (loByte target)) s1
  s2.setPc target

/-- The relative branches (R230, R115). -/
def branch (cond : Bool) (off : Byte) (s : State) : State :=
  let s1 := fetchOperand s
  if cond then takeBranch off s1 else s1

/-- The target of a jump and the state after the accesses that find it (R240, R113, R114). -/
def resolveJump (t : JumpTarget) (s : State) : Addr × State :=
  let s1 := fetchOperand (fetchOperand s)
  match t with
  | .abs w => (w, s1)
  | .ind w => readPointer16 w s1
  | .iax w => readPointer16 (indexed w s.x) (idle s1)

/-- What `JSR` does between the fetches of its two operand bytes (R243). -/
def callFrame (s : State) : State := pushPc (dummyRead (stackAddr s.sp) s)

/-- Pull with the dummy read before it (R147 to R150). -/
def pullRegister (s : State) : Byte × State :=
  let s1 := implied s
  pull (dummyRead (stackAddr s1.sp) s1)

/-- A push instruction (R143 to R146). -/
def pushRegister (v : Byte) (s : State) : State := push v (implied s)

end Sys2Proof.Machine
end

