-- ==== Sys2Proof/Machine/Alu.lean ====
section
/-! DEFINITION. The meanings of arithmetic, logic, compare and bit-test instructions (spec/42_alu.md). -/

namespace Sys2Proof.Machine

/-- The effect of a decimal `ADC` or `SBC` on `A` and the flags (R172, R173): the given result and carry for valid BCD operands,
with a free `V` (U2); five free values otherwise (U3). One free value is used either way. -/
def decimalResult (valid : Bool) (r : Byte × Bool) (s : State) : State :=
  let k := s.freeCtr
  if valid then
    (s.setA r.1).setP { s.p.setNZ r.1 with c := r.2, v := Config.decimalV k } |>.bumpFree
  else
    (s.setA (Config.invalidBcdA k)).setP
      { s.p with
        n := Config.invalidBcdN k, v := Config.decimalV k, z := Config.invalidBcdZ k, c := Config.invalidBcdC k } |>.bumpFree

/-- A binary result and its flags (R170, R171). -/
def binaryResult (r : Byte × Flags) (s : State) : State := (s.setA r.1).setP r.2

/-- The sum of `A`, the operand and the carry (R174): in decimal mode with one idle cycle, last (D10). -/
def addOperand (m : Byte) (s : State) : State :=
  if s.p.d then idle (decimalResult (validBcd s.a && validBcd m) (addDec s.a m s.p.c) s)
  else binaryResult (addBin s.a m s.p) s

/-- The difference of `A`, the operand and the borrow (R175). -/
def subOperand (m : Byte) (s : State) : State :=
  if s.p.d then idle (decimalResult (validBcd s.a && validBcd m) (subDec s.a m s.p.c) s)
  else binaryResult (subBin s.a m s.p) s

/-- A logic operation on `A` and the operand (R176). -/
def logic (f : Byte → Byte → Byte) (o : Operand) (s : State) : State :=
  let r := readOperand o (fetchOpcode s)
  (r.2.setA (f s.a r.1)).setNZ (f s.a r.1)

/-- A compare of a register with the operand (R179): only flags. -/
def compare (reg : Byte) (o : Operand) (s : State) : State :=
  let r := readOperand o (fetchOpcode s)
  r.2.setP (compareFlags reg r.1 r.2.p)

/-- The operand is in memory, not immediate (R182). -/
def operandInMemory : Operand → Bool
  | .imm _ => false
  | .mem _ => true

/-- `ADC` (R174). -/
def execAdc (o : Operand) (s : State) : Host.Outcome State Fault Refusal :=
  let r := readOperand o (fetchOpcode s)
  .next (addOperand r.1 r.2)

/-- `SBC` (R175). -/
def execSbc (o : Operand) (s : State) : Host.Outcome State Fault Refusal :=
  let r := readOperand o (fetchOpcode s)
  .next (subOperand r.1 r.2)

/-- `AND` (R176). -/
def execAnd (o : Operand) (s : State) : Host.Outcome State Fault Refusal :=
  .next (logic (fun a m => a &&& m) o s)

/-- `ORA` (R177). -/
def execOra (o : Operand) (s : State) : Host.Outcome State Fault Refusal :=
  .next (logic (fun a m => a ||| m) o s)

/-- `EOR` (R178). -/
def execEor (o : Operand) (s : State) : Host.Outcome State Fault Refusal :=
  .next (logic (fun a m => a ^^^ m) o s)

/-- `CMP` (R179). -/
def execCmp (o : Operand) (s : State) : Host.Outcome State Fault Refusal :=
  .next (compare s.a o s)

/-- `CPX` (R180). -/
def execCpx (o : Operand) (s : State) : Host.Outcome State Fault Refusal :=
  .next (compare s.x o s)

/-- `CPY` (R181). -/
def execCpy (o : Operand) (s : State) : Host.Outcome State Fault Refusal :=
  .next (compare s.y o s)

/-- `BIT` (R182). -/
def execBit (o : Operand) (s : State) : Host.Outcome State Fault Refusal :=
  let r := readOperand o (fetchOpcode s)
  .next (r.2.setP (bitFlags (operandInMemory o) s.a r.1 r.2.p))

/-- `TSB` (R183). -/
def execTsb (m : MemMode) (s : State) : Host.Outcome State Fault Refusal :=
  .next (modifyMemory m (tsbByte s.a) (fetchOpcode s))

/-- `TRB` (R184). -/
def execTrb (m : MemMode) (s : State) : Host.Outcome State Fault Refusal :=
  .next (modifyMemory m (trbByte s.a) (fetchOpcode s))

end Sys2Proof.Machine
end

