-- ==== Sys2Proof/Machine/BitOps.lean ====
section
/-! DEFINITION. The meanings of RMB, SMB, BBR and BBS, which the decoder gives only under `BITOPS` (spec/46_bitops_optional.md). -/

namespace Sys2Proof.Machine

/-- `RMBn`, `SMBn`: the read-modify-write pattern in page 0 (R281, R282). -/
def modifyBit (f : Byte → Flags → Byte × Flags) (z : Byte) (s : State) : State :=
  modifyMemory (.zp z) f (fetchOpcode s)

/-- `BBRn`, `BBSn` (R283, R284): the byte is read and read again as a dummy, the offset fetched, and the branch taken when bit `n`
is `want`. -/
def branchOnBit (n : Nat) (want : Bool) (z off : Byte) (s : State) : State :=
  let m := memRead .read (zeroPage z) (fetchOperand (fetchOpcode s))
  branch (m.1.getLsbD n == want) off (dummyRead (zeroPage z) m.2)

/-- `RMB0` (R281). -/
def execRmb0 (z : Byte) (s : State) : Host.Outcome State Fault Refusal :=
  .next (modifyBit (rmbByte 0) z s)

/-- `RMB1` (R281). -/
def execRmb1 (z : Byte) (s : State) : Host.Outcome State Fault Refusal :=
  .next (modifyBit (rmbByte 1) z s)

/-- `RMB2` (R281). -/
def execRmb2 (z : Byte) (s : State) : Host.Outcome State Fault Refusal :=
  .next (modifyBit (rmbByte 2) z s)

/-- `RMB3` (R281). -/
def execRmb3 (z : Byte) (s : State) : Host.Outcome State Fault Refusal :=
  .next (modifyBit (rmbByte 3) z s)

/-- `RMB4` (R281). -/
def execRmb4 (z : Byte) (s : State) : Host.Outcome State Fault Refusal :=
  .next (modifyBit (rmbByte 4) z s)

/-- `RMB5` (R281). -/
def execRmb5 (z : Byte) (s : State) : Host.Outcome State Fault Refusal :=
  .next (modifyBit (rmbByte 5) z s)

/-- `RMB6` (R281). -/
def execRmb6 (z : Byte) (s : State) : Host.Outcome State Fault Refusal :=
  .next (modifyBit (rmbByte 6) z s)

/-- `RMB7` (R281). -/
def execRmb7 (z : Byte) (s : State) : Host.Outcome State Fault Refusal :=
  .next (modifyBit (rmbByte 7) z s)

/-- `SMB0` (R282). -/
def execSmb0 (z : Byte) (s : State) : Host.Outcome State Fault Refusal :=
  .next (modifyBit (smbByte 0) z s)

/-- `SMB1` (R282). -/
def execSmb1 (z : Byte) (s : State) : Host.Outcome State Fault Refusal :=
  .next (modifyBit (smbByte 1) z s)

/-- `SMB2` (R282). -/
def execSmb2 (z : Byte) (s : State) : Host.Outcome State Fault Refusal :=
  .next (modifyBit (smbByte 2) z s)

/-- `SMB3` (R282). -/
def execSmb3 (z : Byte) (s : State) : Host.Outcome State Fault Refusal :=
  .next (modifyBit (smbByte 3) z s)

/-- `SMB4` (R282). -/
def execSmb4 (z : Byte) (s : State) : Host.Outcome State Fault Refusal :=
  .next (modifyBit (smbByte 4) z s)

/-- `SMB5` (R282). -/
def execSmb5 (z : Byte) (s : State) : Host.Outcome State Fault Refusal :=
  .next (modifyBit (smbByte 5) z s)

/-- `SMB6` (R282). -/
def execSmb6 (z : Byte) (s : State) : Host.Outcome State Fault Refusal :=
  .next (modifyBit (smbByte 6) z s)

/-- `SMB7` (R282). -/
def execSmb7 (z : Byte) (s : State) : Host.Outcome State Fault Refusal :=
  .next (modifyBit (smbByte 7) z s)

/-- `BBR0` (R283). -/
def execBbr0 (z off : Byte) (s : State) : Host.Outcome State Fault Refusal :=
  .next (branchOnBit 0 false z off s)

/-- `BBR1` (R283). -/
def execBbr1 (z off : Byte) (s : State) : Host.Outcome State Fault Refusal :=
  .next (branchOnBit 1 false z off s)

/-- `BBR2` (R283). -/
def execBbr2 (z off : Byte) (s : State) : Host.Outcome State Fault Refusal :=
  .next (branchOnBit 2 false z off s)

/-- `BBR3` (R283). -/
def execBbr3 (z off : Byte) (s : State) : Host.Outcome State Fault Refusal :=
  .next (branchOnBit 3 false z off s)

/-- `BBR4` (R283). -/
def execBbr4 (z off : Byte) (s : State) : Host.Outcome State Fault Refusal :=
  .next (branchOnBit 4 false z off s)

/-- `BBR5` (R283). -/
def execBbr5 (z off : Byte) (s : State) : Host.Outcome State Fault Refusal :=
  .next (branchOnBit 5 false z off s)

/-- `BBR6` (R283). -/
def execBbr6 (z off : Byte) (s : State) : Host.Outcome State Fault Refusal :=
  .next (branchOnBit 6 false z off s)

/-- `BBR7` (R283). -/
def execBbr7 (z off : Byte) (s : State) : Host.Outcome State Fault Refusal :=
  .next (branchOnBit 7 false z off s)

/-- `BBS0` (R284). -/
def execBbs0 (z off : Byte) (s : State) : Host.Outcome State Fault Refusal :=
  .next (branchOnBit 0 true z off s)

/-- `BBS1` (R284). -/
def execBbs1 (z off : Byte) (s : State) : Host.Outcome State Fault Refusal :=
  .next (branchOnBit 1 true z off s)

/-- `BBS2` (R284). -/
def execBbs2 (z off : Byte) (s : State) : Host.Outcome State Fault Refusal :=
  .next (branchOnBit 2 true z off s)

/-- `BBS3` (R284). -/
def execBbs3 (z off : Byte) (s : State) : Host.Outcome State Fault Refusal :=
  .next (branchOnBit 3 true z off s)

/-- `BBS4` (R284). -/
def execBbs4 (z off : Byte) (s : State) : Host.Outcome State Fault Refusal :=
  .next (branchOnBit 4 true z off s)

/-- `BBS5` (R284). -/
def execBbs5 (z off : Byte) (s : State) : Host.Outcome State Fault Refusal :=
  .next (branchOnBit 5 true z off s)

/-- `BBS6` (R284). -/
def execBbs6 (z off : Byte) (s : State) : Host.Outcome State Fault Refusal :=
  .next (branchOnBit 6 true z off s)

/-- `BBS7` (R284). -/
def execBbs7 (z off : Byte) (s : State) : Host.Outcome State Fault Refusal :=
  .next (branchOnBit 7 true z off s)

end Sys2Proof.Machine
end

