-- ==== Sys2Proof/Machine/Control.lean ====
section
/-! DEFINITION. The meanings of branches, jumps, calls, returns and BRK (spec/44_control_flow.md). -/

namespace Sys2Proof.Machine

/-- `BCC` (R231). -/
def execBcc (off : Byte) (s : State) : Host.Outcome State Fault Refusal :=
  .next (branch (!s.p.c) off (fetchOpcode s))

/-- `BCS` (R232). -/
def execBcs (off : Byte) (s : State) : Host.Outcome State Fault Refusal :=
  .next (branch (s.p.c) off (fetchOpcode s))

/-- `BEQ` (R233). -/
def execBeq (off : Byte) (s : State) : Host.Outcome State Fault Refusal :=
  .next (branch (s.p.z) off (fetchOpcode s))

/-- `BNE` (R234). -/
def execBne (off : Byte) (s : State) : Host.Outcome State Fault Refusal :=
  .next (branch (!s.p.z) off (fetchOpcode s))

/-- `BMI` (R235). -/
def execBmi (off : Byte) (s : State) : Host.Outcome State Fault Refusal :=
  .next (branch (s.p.n) off (fetchOpcode s))

/-- `BPL` (R236). -/
def execBpl (off : Byte) (s : State) : Host.Outcome State Fault Refusal :=
  .next (branch (!s.p.n) off (fetchOpcode s))

/-- `BVC` (R237). -/
def execBvc (off : Byte) (s : State) : Host.Outcome State Fault Refusal :=
  .next (branch (!s.p.v) off (fetchOpcode s))

/-- `BVS` (R238). -/
def execBvs (off : Byte) (s : State) : Host.Outcome State Fault Refusal :=
  .next (branch (s.p.v) off (fetchOpcode s))

/-- `BRA` (R239). -/
def execBra (off : Byte) (s : State) : Host.Outcome State Fault Refusal :=
  .next (branch true off (fetchOpcode s))

/-- `JMP` (R240, R241, R242). -/
def execJmp (t : JumpTarget) (s : State) : Host.Outcome State Fault Refusal :=
  let r := resolveJump t (fetchOpcode s)
  .next (r.2.setPc r.1)

/-- `JSR` (R243): the high operand byte is fetched after the two pushes. -/
def execJsr (target : Addr) (s : State) : Host.Outcome State Fault Refusal :=
  .next ((fetchOperand (callFrame (fetchOperand (fetchOpcode s)))).setPc target)

/-- `RTS` (R244). -/
def execRts (s : State) : Host.Outcome State Fault Refusal :=
  let s1 := implied (fetchOpcode s)
  let s2 := pullPc (dummyRead (stackAddr s1.sp) s1)
  .next ((dummyRead s2.pc s2).setPc (s2.pc + 1))

/-- `RTI` (R245). -/
def execRti (s : State) : Host.Outcome State Fault Refusal :=
  let s1 := implied (fetchOpcode s)
  .next (returnFromInterrupt (dummyRead (stackAddr s1.sp) s1))

/-- `BRK` (R246): the signature byte is fetched and ignored, then the exception is taken with `B = 1`. -/
def execBrk (_sig : Byte) (s : State) : Host.Outcome State Fault Refusal :=
  .next (takeException true irqVector (fetchOperand (fetchOpcode s)))

end Sys2Proof.Machine
end

