-- ==== Sys2Proof/Machine/LoadStore.lean ====
section
/-! DEFINITION. The meanings of loads, stores, transfers, pushes and pulls (spec/41_load_store_transfer.md). -/

namespace Sys2Proof.Machine

/-- A load into a register that `set` writes, with `N Z` from the byte (R130). -/
def load (set : State → Byte → State) (o : Operand) (s : State) : State :=
  let r := readOperand o (fetchOpcode s)
  (set r.2 r.1).setNZ r.1

/-- A register transfer of `v` that sets `N Z` (R137). -/
def transfer (set : State → Byte → State) (v : Byte) (s : State) : State :=
  (set (implied (fetchOpcode s)) v).setNZ v

/-- A pull into a register, with `N Z` from the byte (R147). -/
def pullInto (set : State → Byte → State) (s : State) : State :=
  let r := pullRegister (fetchOpcode s)
  (set r.2 r.1).setNZ r.1

/-- `LDA` (R130). -/
def execLda (o : Operand) (s : State) : Host.Outcome State Fault Refusal :=
  .next (load State.setA o s)

/-- `LDX` (R131). -/
def execLdx (o : Operand) (s : State) : Host.Outcome State Fault Refusal :=
  .next (load State.setX o s)

/-- `LDY` (R132). -/
def execLdy (o : Operand) (s : State) : Host.Outcome State Fault Refusal :=
  .next (load State.setY o s)

/-- `STA` (R133). -/
def execSta (m : MemMode) (s : State) : Host.Outcome State Fault Refusal :=
  .next (storeOperand m s.a (fetchOpcode s))

/-- `STX` (R134). -/
def execStx (m : MemMode) (s : State) : Host.Outcome State Fault Refusal :=
  .next (storeOperand m s.x (fetchOpcode s))

/-- `STY` (R135). -/
def execSty (m : MemMode) (s : State) : Host.Outcome State Fault Refusal :=
  .next (storeOperand m s.y (fetchOpcode s))

/-- `STZ` (R136). -/
def execStz (m : MemMode) (s : State) : Host.Outcome State Fault Refusal :=
  .next (storeOperand m 0x00 (fetchOpcode s))

/-- `TAX` (R137). -/
def execTax (s : State) : Host.Outcome State Fault Refusal :=
  .next (transfer State.setX s.a s)

/-- `TAY` (R138). -/
def execTay (s : State) : Host.Outcome State Fault Refusal :=
  .next (transfer State.setY s.a s)

/-- `TXA` (R139). -/
def execTxa (s : State) : Host.Outcome State Fault Refusal :=
  .next (transfer State.setA s.x s)

/-- `TYA` (R140). -/
def execTya (s : State) : Host.Outcome State Fault Refusal :=
  .next (transfer State.setA s.y s)

/-- `TSX` (R141). -/
def execTsx (s : State) : Host.Outcome State Fault Refusal :=
  .next (transfer State.setX s.sp s)

/-- `TXS` (R142): the one transfer that sets no flag. -/
def execTxs (s : State) : Host.Outcome State Fault Refusal :=
  .next ((implied (fetchOpcode s)).setSp s.x)

/-- `PHA` (R143). -/
def execPha (s : State) : Host.Outcome State Fault Refusal :=
  .next (pushRegister s.a (fetchOpcode s))

/-- `PHX` (R144). -/
def execPhx (s : State) : Host.Outcome State Fault Refusal :=
  .next (pushRegister s.x (fetchOpcode s))

/-- `PHY` (R145). -/
def execPhy (s : State) : Host.Outcome State Fault Refusal :=
  .next (pushRegister s.y (fetchOpcode s))

/-- `PHP` (R146): the byte pushed has `B = 1` (D32). -/
def execPhp (s : State) : Host.Outcome State Fault Refusal :=
  .next (pushRegister (s.p.statusByte true) (fetchOpcode s))

/-- `PLA` (R147). -/
def execPla (s : State) : Host.Outcome State Fault Refusal :=
  .next (pullInto State.setA s)

/-- `PLX` (R148). -/
def execPlx (s : State) : Host.Outcome State Fault Refusal :=
  .next (pullInto State.setX s)

/-- `PLY` (R149). -/
def execPly (s : State) : Host.Outcome State Fault Refusal :=
  .next (pullInto State.setY s)

/-- `PLP` (R150): all six flags from the byte pulled. -/
def execPlp (s : State) : Host.Outcome State Fault Refusal :=
  let r := pullRegister (fetchOpcode s)
  .next (r.2.setP (Flags.setStatus r.1))

end Sys2Proof.Machine
end

