-- ==== Sys2Proof/Machine/Shift.lean ====
section
/-! DEFINITION. The meanings of shifts, rotates, increments and decrements (spec/43_rmw_shift_incdec.md). -/

namespace Sys2Proof.Machine

/-- `ASL` (R201). -/
def execAsl (o : RmwOperand) (s : State) : Host.Outcome State Fault Refusal :=
  .next (modifyOperand o aslByte (fetchOpcode s))

/-- `LSR` (R202). -/
def execLsr (o : RmwOperand) (s : State) : Host.Outcome State Fault Refusal :=
  .next (modifyOperand o lsrByte (fetchOpcode s))

/-- `ROL` (R203). -/
def execRol (o : RmwOperand) (s : State) : Host.Outcome State Fault Refusal :=
  .next (modifyOperand o rolByte (fetchOpcode s))

/-- `ROR` (R204). -/
def execRor (o : RmwOperand) (s : State) : Host.Outcome State Fault Refusal :=
  .next (modifyOperand o rorByte (fetchOpcode s))

/-- `INC` (R205). -/
def execInc (o : RmwOperand) (s : State) : Host.Outcome State Fault Refusal :=
  .next (modifyOperand o incByte (fetchOpcode s))

/-- `DEC` (R206). -/
def execDec (o : RmwOperand) (s : State) : Host.Outcome State Fault Refusal :=
  .next (modifyOperand o decByte (fetchOpcode s))

/-- An index register moved by one, with `N Z` from the result (R207). -/
def stepIndex (set : State → Byte → State) (v : Byte) (s : State) : State :=
  (set (implied (fetchOpcode s)) v).setNZ v

/-- `INX` (R207). -/
def execInx (s : State) : Host.Outcome State Fault Refusal :=
  .next (stepIndex State.setX (s.x + 1) s)

/-- `INY` (R208). -/
def execIny (s : State) : Host.Outcome State Fault Refusal :=
  .next (stepIndex State.setY (s.y + 1) s)

/-- `DEX` (R209). -/
def execDex (s : State) : Host.Outcome State Fault Refusal :=
  .next (stepIndex State.setX (s.x - 1) s)

/-- `DEY` (R210). -/
def execDey (s : State) : Host.Outcome State Fault Refusal :=
  .next (stepIndex State.setY (s.y - 1) s)

end Sys2Proof.Machine
end

