-- ==== Sys2Proof/Machine/System.lean ====
section
/-! DEFINITION. The meanings of flag instructions, NOP, WAI, STP and the undefined opcodes (spec/45_flags_system.md). -/

namespace Sys2Proof.Machine

/-- An implied instruction that changes only flags (R260 to R266). -/
def changeFlags (f : Flags → Flags) (s : State) : State :=
  let s1 := implied (fetchOpcode s)
  s1.setP (f s1.p)

/-- `CLC` (R260). -/
def execClc (s : State) : Host.Outcome State Fault Refusal :=
  .next (changeFlags (fun p => { p with c := false }) s)

/-- `SEC` (R261). -/
def execSec (s : State) : Host.Outcome State Fault Refusal :=
  .next (changeFlags (fun p => { p with c := true }) s)

/-- `CLI` (R262). -/
def execCli (s : State) : Host.Outcome State Fault Refusal :=
  .next (changeFlags (fun p => { p with i := false }) s)

/-- `SEI` (R263). -/
def execSei (s : State) : Host.Outcome State Fault Refusal :=
  .next (changeFlags (fun p => { p with i := true }) s)

/-- `CLD` (R264). -/
def execCld (s : State) : Host.Outcome State Fault Refusal :=
  .next (changeFlags (fun p => { p with d := false }) s)

/-- `SED` (R265). -/
def execSed (s : State) : Host.Outcome State Fault Refusal :=
  .next (changeFlags (fun p => { p with d := true }) s)

/-- `CLV` (R266). -/
def execClv (s : State) : Host.Outcome State Fault Refusal :=
  .next (changeFlags (fun p => { p with v := false }) s)

/-- `NOP` (R267). -/
def execNop (s : State) : Host.Outcome State Fault Refusal :=
  .next (implied (fetchOpcode s))

/-- Enter a wait or stop state: the implied dummy read, one idle cycle (R268, R269). -/
def halt (r : RunState) (s : State) : State := (idle (implied (fetchOpcode s))).setRun r

/-- `WAI` (R268). -/
def execWai (s : State) : Host.Outcome State Fault Refusal :=
  .next (halt .waitingForInterrupt s)

/-- `STP` (R269). -/
def execStp (s : State) : Host.Outcome State Fault Refusal :=
  .next (halt .stopped s)

/-- `UNDEF_EXTRA_CYCLES[op]` (R7, R270): 0 unless the parameter lists the byte. -/
def undefExtra (s : State) (op : Byte) : Nat := (s.params.undefExtraCycles.lookup op).getD 0

/-- An undefined opcode with the given number of operand bytes (R270 to R273): in strict mode the step fails right after the
opcode fetch; otherwise the operand bytes are fetched and the extra cycles spent. -/
def undefinedOpcode (op : Byte) (operandBytes : Nat) (s : State) : Host.Outcome State Fault Refusal :=
  let s1 := fetchOpcode s
  if s.params.strictUndefined then .fault (.unknownOpcode op s1)
  else .next (idle^[undefExtra s op] (fetchOperand^[operandBytes] s1))

/-- `NOP1` (R270, R273). -/
def execNop1 (op : Byte) (s : State) : Host.Outcome State Fault Refusal :=
  undefinedOpcode op 0 s

/-- `NOP2` (R271, R273). -/
def execNop2 (op _b1 : Byte) (s : State) : Host.Outcome State Fault Refusal :=
  undefinedOpcode op 1 s

/-- `NOP3` (R272, R273). -/
def execNop3 (op : Byte) (_w : Addr) (s : State) : Host.Outcome State Fault Refusal :=
  undefinedOpcode op 2 s

end Sys2Proof.Machine
end

