-- ==== Sys2Proof/Machine/Dispatch.lean ====
section
/-! DEFINITION. The dispatch: one arm for each constructor of `Instr`, one call of its meaning. -/

namespace Sys2Proof.Machine

def exec (i : Instr) (s : State) : Host.Outcome State Fault Refusal :=
  match i with
  | .lda o => Sys2Proof.Machine.execLda o s
  | .ldx o => Sys2Proof.Machine.execLdx o s
  | .ldy o => Sys2Proof.Machine.execLdy o s
  | .sta m => Sys2Proof.Machine.execSta m s
  | .stx m => Sys2Proof.Machine.execStx m s
  | .sty m => Sys2Proof.Machine.execSty m s
  | .stz m => Sys2Proof.Machine.execStz m s
  | .tax => Sys2Proof.Machine.execTax s
  | .tay => Sys2Proof.Machine.execTay s
  | .txa => Sys2Proof.Machine.execTxa s
  | .tya => Sys2Proof.Machine.execTya s
  | .tsx => Sys2Proof.Machine.execTsx s
  | .txs => Sys2Proof.Machine.execTxs s
  | .pha => Sys2Proof.Machine.execPha s
  | .phx => Sys2Proof.Machine.execPhx s
  | .phy => Sys2Proof.Machine.execPhy s
  | .php => Sys2Proof.Machine.execPhp s
  | .pla => Sys2Proof.Machine.execPla s
  | .plx => Sys2Proof.Machine.execPlx s
  | .ply => Sys2Proof.Machine.execPly s
  | .plp => Sys2Proof.Machine.execPlp s
  | .adc o => Sys2Proof.Machine.execAdc o s
  | .sbc o => Sys2Proof.Machine.execSbc o s
  | .and o => Sys2Proof.Machine.execAnd o s
  | .ora o => Sys2Proof.Machine.execOra o s
  | .eor o => Sys2Proof.Machine.execEor o s
  | .cmp o => Sys2Proof.Machine.execCmp o s
  | .cpx o => Sys2Proof.Machine.execCpx o s
  | .cpy o => Sys2Proof.Machine.execCpy o s
  | .bit o => Sys2Proof.Machine.execBit o s
  | .tsb m => Sys2Proof.Machine.execTsb m s
  | .trb m => Sys2Proof.Machine.execTrb m s
  | .asl o => Sys2Proof.Machine.execAsl o s
  | .lsr o => Sys2Proof.Machine.execLsr o s
  | .rol o => Sys2Proof.Machine.execRol o s
  | .ror o => Sys2Proof.Machine.execRor o s
  | .inc o => Sys2Proof.Machine.execInc o s
  | .dec o => Sys2Proof.Machine.execDec o s
  | .inx => Sys2Proof.Machine.execInx s
  | .iny => Sys2Proof.Machine.execIny s
  | .dex => Sys2Proof.Machine.execDex s
  | .dey => Sys2Proof.Machine.execDey s
  | .bcc off => Sys2Proof.Machine.execBcc off s
  | .bcs off => Sys2Proof.Machine.execBcs off s
  | .beq off => Sys2Proof.Machine.execBeq off s
  | .bne off => Sys2Proof.Machine.execBne off s
  | .bmi off => Sys2Proof.Machine.execBmi off s
  | .bpl off => Sys2Proof.Machine.execBpl off s
  | .bvc off => Sys2Proof.Machine.execBvc off s
  | .bvs off => Sys2Proof.Machine.execBvs off s
  | .bra off => Sys2Proof.Machine.execBra off s
  | .jmp t => Sys2Proof.Machine.execJmp t s
  | .jsr target => Sys2Proof.Machine.execJsr target s
  | .rts => Sys2Proof.Machine.execRts s
  | .rti => Sys2Proof.Machine.execRti s
  | .brk sig => Sys2Proof.Machine.execBrk sig s
  | .clc => Sys2Proof.Machine.execClc s
  | .sec => Sys2Proof.Machine.execSec s
  | .cli => Sys2Proof.Machine.execCli s
  | .sei => Sys2Proof.Machine.execSei s
  | .cld => Sys2Proof.Machine.execCld s
  | .sed => Sys2Proof.Machine.execSed s
  | .clv => Sys2Proof.Machine.execClv s
  | .nop => Sys2Proof.Machine.execNop s
  | .wai => Sys2Proof.Machine.execWai s
  | .stp => Sys2Proof.Machine.execStp s
  | .nop1 op => Sys2Proof.Machine.execNop1 op s
  | .nop2 op b1 => Sys2Proof.Machine.execNop2 op b1 s
  | .nop3 op w => Sys2Proof.Machine.execNop3 op w s
  | .rmb0 z => Sys2Proof.Machine.execRmb0 z s
  | .rmb1 z => Sys2Proof.Machine.execRmb1 z s
  | .rmb2 z => Sys2Proof.Machine.execRmb2 z s
  | .rmb3 z => Sys2Proof.Machine.execRmb3 z s
  | .rmb4 z => Sys2Proof.Machine.execRmb4 z s
  | .rmb5 z => Sys2Proof.Machine.execRmb5 z s
  | .rmb6 z => Sys2Proof.Machine.execRmb6 z s
  | .rmb7 z => Sys2Proof.Machine.execRmb7 z s
  | .smb0 z => Sys2Proof.Machine.execSmb0 z s
  | .smb1 z => Sys2Proof.Machine.execSmb1 z s
  | .smb2 z => Sys2Proof.Machine.execSmb2 z s
  | .smb3 z => Sys2Proof.Machine.execSmb3 z s
  | .smb4 z => Sys2Proof.Machine.execSmb4 z s
  | .smb5 z => Sys2Proof.Machine.execSmb5 z s
  | .smb6 z => Sys2Proof.Machine.execSmb6 z s
  | .smb7 z => Sys2Proof.Machine.execSmb7 z s
  | .bbr0 z off => Sys2Proof.Machine.execBbr0 z off s
  | .bbr1 z off => Sys2Proof.Machine.execBbr1 z off s
  | .bbr2 z off => Sys2Proof.Machine.execBbr2 z off s
  | .bbr3 z off => Sys2Proof.Machine.execBbr3 z off s
  | .bbr4 z off => Sys2Proof.Machine.execBbr4 z off s
  | .bbr5 z off => Sys2Proof.Machine.execBbr5 z off s
  | .bbr6 z off => Sys2Proof.Machine.execBbr6 z off s
  | .bbr7 z off => Sys2Proof.Machine.execBbr7 z off s
  | .bbs0 z off => Sys2Proof.Machine.execBbs0 z off s
  | .bbs1 z off => Sys2Proof.Machine.execBbs1 z off s
  | .bbs2 z off => Sys2Proof.Machine.execBbs2 z off s
  | .bbs3 z off => Sys2Proof.Machine.execBbs3 z off s
  | .bbs4 z off => Sys2Proof.Machine.execBbs4 z off s
  | .bbs5 z off => Sys2Proof.Machine.execBbs5 z off s
  | .bbs6 z off => Sys2Proof.Machine.execBbs6 z off s
  | .bbs7 z off => Sys2Proof.Machine.execBbs7 z off s

end Sys2Proof.Machine
end

