-- ==== Sys2Proof/WellFormed.lean ====
section
/-! DEFINITION. Which terms are instructions of the machine: the addressing modes each mnemonic admits (spec/30_encoding.md
R84) and which opcode bytes are undefined (R85, R86). Also the length in bytes (R80, R81). -/

namespace Sys2Proof

/-- Operand bytes of a memory mode (R82). -/
def MemMode.operandBytes : MemMode → Nat
  | .zp _ => 1
  | .zpx _ => 1
  | .zpy _ => 1
  | .abs _ => 2
  | .abx _ => 2
  | .aby _ => 2
  | .izx _ => 1
  | .izy _ => 1
  | .izp _ => 1

/-- The memory modes of `ORA AND EOR ADC STA LDA CMP SBC`: all but `ZPY`. -/
def MemMode.isAlu : MemMode → Bool
  | .zpy _ => false
  | .zp _ | .zpx _ | .abs _ | .abx _ | .aby _ | .izx _ | .izy _ | .izp _ => true

/-- `ZP ZPX ABS ABX`: the memory modes of `LDY BIT STZ` and of the shifts and increments. -/
def MemMode.isIndexedByX : MemMode → Bool
  | .zp _ | .zpx _ | .abs _ | .abx _ => true
  | .zpy _ | .aby _ | .izx _ | .izy _ | .izp _ => false

/-- `ZP ZPY ABS ABY`: the memory modes of `LDX`. -/
def MemMode.isIndexedByY : MemMode → Bool
  | .zp _ | .zpy _ | .abs _ | .aby _ => true
  | .zpx _ | .abx _ | .izx _ | .izy _ | .izp _ => false

/-- `ZP ZPX ABS`: the memory modes of `STY`. -/
def MemMode.isStoreY : MemMode → Bool
  | .zp _ | .zpx _ | .abs _ => true
  | .zpy _ | .abx _ | .aby _ | .izx _ | .izy _ | .izp _ => false

/-- `ZP ZPY ABS`: the memory modes of `STX`. -/
def MemMode.isStoreX : MemMode → Bool
  | .zp _ | .zpy _ | .abs _ => true
  | .zpx _ | .abx _ | .aby _ | .izx _ | .izy _ | .izp _ => false

/-- `ZP ABS`: the memory modes of `CPX CPY TSB TRB`. -/
def MemMode.isPlain : MemMode → Bool
  | .zp _ | .abs _ => true
  | .zpx _ | .zpy _ | .abx _ | .aby _ | .izx _ | .izy _ | .izp _ => false

/-- Immediate data, or memory in one of the admitted modes. -/
def Operand.admits (p : MemMode → Bool) : Operand → Bool
  | .imm _ => true
  | .mem m => p m

/-- The accumulator, or memory in one of the admitted modes. -/
def RmwOperand.admits (p : MemMode → Bool) : RmwOperand → Bool
  | .acc => true
  | .mem m => p m

/-- Columns 7 and F: the bytes whose decoding `BITOPS` selects (R86). -/
def isBitopColumn (op : Byte) : Bool := op.toNat % 16 == 7 || op.toNat % 16 == 15

/-- The undefined opcodes of length 1 (R85): column 3, column B but for WAI and STP, and columns 7 and F without `BITOPS`. -/
def isUndefined1 (bitops : Bool) (op : Byte) : Bool :=
  op.toNat % 16 == 3 || (op.toNat % 16 == 11 && op != 0xCB && op != 0xDB) || (isBitopColumn op && !bitops)

/-- The undefined opcodes of length 2 (R85). -/
def isUndefined2 (op : Byte) : Bool :=
  [0x02#8, 0x22#8, 0x42#8, 0x44#8, 0x54#8, 0x62#8, 0x82#8, 0xC2#8, 0xD4#8, 0xE2#8, 0xF4#8].contains op

/-- The undefined opcodes of length 3 (R85). -/
def isUndefined3 (op : Byte) : Bool := [0x5C#8, 0xDC#8, 0xFC#8].contains op

/-- An undefined opcode byte of any length (R85). -/
def isUndefined (bitops : Bool) (op : Byte) : Bool := isUndefined1 bitops op || isUndefined2 op || isUndefined3 op

/-- The instructions of the machine under the given `BITOPS` (R84, R85, R86): the admitted mode, a byte that is undefined, or a
bit instruction that is present. -/
def Instr.wf (bitops : Bool) : Instr → Bool
  | .lda o => o.admits MemMode.isAlu
  | .ldx o => o.admits MemMode.isIndexedByY
  | .ldy o => o.admits MemMode.isIndexedByX
  | .sta m => m.isAlu
  | .stx m => m.isStoreX
  | .sty m => m.isStoreY
  | .stz m => m.isIndexedByX
  | .tax => true
  | .tay => true
  | .txa => true
  | .tya => true
  | .tsx => true
  | .txs => true
  | .pha => true
  | .phx => true
  | .phy => true
  | .php => true
  | .pla => true
  | .plx => true
  | .ply => true
  | .plp => true
  | .adc o => o.admits MemMode.isAlu
  | .sbc o => o.admits MemMode.isAlu
  | .and o => o.admits MemMode.isAlu
  | .ora o => o.admits MemMode.isAlu
  | .eor o => o.admits MemMode.isAlu
  | .cmp o => o.admits MemMode.isAlu
  | .cpx o => o.admits MemMode.isPlain
  | .cpy o => o.admits MemMode.isPlain
  | .bit o => o.admits MemMode.isIndexedByX
  | .tsb m => m.isPlain
  | .trb m => m.isPlain
  | .asl o => o.admits MemMode.isIndexedByX
  | .lsr o => o.admits MemMode.isIndexedByX
  | .rol o => o.admits MemMode.isIndexedByX
  | .ror o => o.admits MemMode.isIndexedByX
  | .inc o => o.admits MemMode.isIndexedByX
  | .dec o => o.admits MemMode.isIndexedByX
  | .inx => true
  | .iny => true
  | .dex => true
  | .dey => true
  | .bcc _ => true
  | .bcs _ => true
  | .beq _ => true
  | .bne _ => true
  | .bmi _ => true
  | .bpl _ => true
  | .bvc _ => true
  | .bvs _ => true
  | .bra _ => true
  | .jmp _ => true
  | .jsr _ => true
  | .rts => true
  | .rti => true
  | .brk _ => true
  | .clc => true
  | .sec => true
  | .cli => true
  | .sei => true
  | .cld => true
  | .sed => true
  | .clv => true
  | .nop => true
  | .wai => true
  | .stp => true
  | .nop1 op => isUndefined1 bitops op
  | .nop2 op _ => isUndefined2 op
  | .nop3 op _ => isUndefined3 op
  | .rmb0 _ => bitops
  | .rmb1 _ => bitops
  | .rmb2 _ => bitops
  | .rmb3 _ => bitops
  | .rmb4 _ => bitops
  | .rmb5 _ => bitops
  | .rmb6 _ => bitops
  | .rmb7 _ => bitops
  | .smb0 _ => bitops
  | .smb1 _ => bitops
  | .smb2 _ => bitops
  | .smb3 _ => bitops
  | .smb4 _ => bitops
  | .smb5 _ => bitops
  | .smb6 _ => bitops
  | .smb7 _ => bitops
  | .bbr0 _ _ => bitops
  | .bbr1 _ _ => bitops
  | .bbr2 _ _ => bitops
  | .bbr3 _ _ => bitops
  | .bbr4 _ _ => bitops
  | .bbr5 _ _ => bitops
  | .bbr6 _ _ => bitops
  | .bbr7 _ _ => bitops
  | .bbs0 _ _ => bitops
  | .bbs1 _ _ => bitops
  | .bbs2 _ _ => bitops
  | .bbs3 _ _ => bitops
  | .bbs4 _ _ => bitops
  | .bbs5 _ _ => bitops
  | .bbs6 _ _ => bitops
  | .bbs7 _ _ => bitops

/-- Length of an operand's bytes plus the opcode (R81). -/
def Operand.length : Operand → Nat
  | .imm _ => 2
  | .mem m => 1 + m.operandBytes

/-- As `Operand.length`; the accumulator form is one byte. -/
def RmwOperand.length : RmwOperand → Nat
  | .acc => 1
  | .mem m => 1 + m.operandBytes

/-- The length in bytes (R80, R81). -/
def Instr.length : Instr → Nat
  | .lda o => o.length
  | .ldx o => o.length
  | .ldy o => o.length
  | .sta m => 1 + m.operandBytes
  | .stx m => 1 + m.operandBytes
  | .sty m => 1 + m.operandBytes
  | .stz m => 1 + m.operandBytes
  | .tax => 1
  | .tay => 1
  | .txa => 1
  | .tya => 1
  | .tsx => 1
  | .txs => 1
  | .pha => 1
  | .phx => 1
  | .phy => 1
  | .php => 1
  | .pla => 1
  | .plx => 1
  | .ply => 1
  | .plp => 1
  | .adc o => o.length
  | .sbc o => o.length
  | .and o => o.length
  | .ora o => o.length
  | .eor o => o.length
  | .cmp o => o.length
  | .cpx o => o.length
  | .cpy o => o.length
  | .bit o => o.length
  | .tsb m => 1 + m.operandBytes
  | .trb m => 1 + m.operandBytes
  | .asl o => o.length
  | .lsr o => o.length
  | .rol o => o.length
  | .ror o => o.length
  | .inc o => o.length
  | .dec o => o.length
  | .inx => 1
  | .iny => 1
  | .dex => 1
  | .dey => 1
  | .bcc _ => 2
  | .bcs _ => 2
  | .beq _ => 2
  | .bne _ => 2
  | .bmi _ => 2
  | .bpl _ => 2
  | .bvc _ => 2
  | .bvs _ => 2
  | .bra _ => 2
  | .jmp _ => 3
  | .jsr _ => 3
  | .rts => 1
  | .rti => 1
  | .brk _ => 2
  | .clc => 1
  | .sec => 1
  | .cli => 1
  | .sei => 1
  | .cld => 1
  | .sed => 1
  | .clv => 1
  | .nop => 1
  | .wai => 1
  | .stp => 1
  | .nop1 _ => 1
  | .nop2 _ _ => 2
  | .nop3 _ _ => 3
  | .rmb0 _ => 2
  | .rmb1 _ => 2
  | .rmb2 _ => 2
  | .rmb3 _ => 2
  | .rmb4 _ => 2
  | .rmb5 _ => 2
  | .rmb6 _ => 2
  | .rmb7 _ => 2
  | .smb0 _ => 2
  | .smb1 _ => 2
  | .smb2 _ => 2
  | .smb3 _ => 2
  | .smb4 _ => 2
  | .smb5 _ => 2
  | .smb6 _ => 2
  | .smb7 _ => 2
  | .bbr0 _ _ => 3
  | .bbr1 _ _ => 3
  | .bbr2 _ _ => 3
  | .bbr3 _ _ => 3
  | .bbr4 _ _ => 3
  | .bbr5 _ _ => 3
  | .bbr6 _ _ => 3
  | .bbr7 _ _ => 3
  | .bbs0 _ _ => 3
  | .bbs1 _ _ => 3
  | .bbs2 _ _ => 3
  | .bbs3 _ _ => 3
  | .bbs4 _ _ => 3
  | .bbs5 _ _ => 3
  | .bbs6 _ _ => 3
  | .bbs7 _ _ => 3

end Sys2Proof
end

