-- ==== Sys2Proof/Decode.lean ====
section
/-! DEFINITION. The decoder, total on any bytes, written row by row as spec/30_encoding.md R83 prints its table, and after it
the encoder, written mnemonic by mnemonic from R84 to R86: the two come from the spec's two tables. -/

namespace Sys2Proof

open Sys2Proof.Machine

/-- Why a list of bytes is no instruction. -/
inductive DecodeError where
  /-- No byte at all. -/
  | noOpcode
  /-- Fewer bytes than the opcode's length (R80). -/
  | missingOperand (op : Byte)
deriving DecidableEq, Repr

/-- Row 0 of R83's table. -/
def opcodeRow0 (bitops : Bool) (op lo hi : Byte) (w : Addr) : List Instr :=
  [.brk lo, .ora (.mem (.izx lo)), .nop2 op lo, .nop1 op, .tsb (.zp lo), .ora (.mem (.zp lo)),
   .asl (.mem (.zp lo)), if bitops then .rmb0 lo else .nop1 op, .php, .ora (.imm lo), .asl .acc, .nop1 op,
   .tsb (.abs w), .ora (.mem (.abs w)), .asl (.mem (.abs w)), if bitops then .bbr0 lo hi else .nop1 op]

/-- Row 1 of R83's table. -/
def opcodeRow1 (bitops : Bool) (op lo hi : Byte) (w : Addr) : List Instr :=
  [.bpl lo, .ora (.mem (.izy lo)), .ora (.mem (.izp lo)), .nop1 op, .trb (.zp lo), .ora (.mem (.zpx lo)),
   .asl (.mem (.zpx lo)), if bitops then .rmb1 lo else .nop1 op, .clc, .ora (.mem (.aby w)), .inc .acc, .nop1 op,
   .trb (.abs w), .ora (.mem (.abx w)), .asl (.mem (.abx w)), if bitops then .bbr1 lo hi else .nop1 op]

/-- Row 2 of R83's table. -/
def opcodeRow2 (bitops : Bool) (op lo hi : Byte) (w : Addr) : List Instr :=
  [.jsr w, .and (.mem (.izx lo)), .nop2 op lo, .nop1 op, .bit (.mem (.zp lo)), .and (.mem (.zp lo)),
   .rol (.mem (.zp lo)), if bitops then .rmb2 lo else .nop1 op, .plp, .and (.imm lo), .rol .acc, .nop1 op,
   .bit (.mem (.abs w)), .and (.mem (.abs w)), .rol (.mem (.abs w)), if bitops then .bbr2 lo hi else .nop1 op]

/-- Row 3 of R83's table. -/
def opcodeRow3 (bitops : Bool) (op lo hi : Byte) (w : Addr) : List Instr :=
  [.bmi lo, .and (.mem (.izy lo)), .and (.mem (.izp lo)), .nop1 op, .bit (.mem (.zpx lo)), .and (.mem (.zpx lo)),
   .rol (.mem (.zpx lo)), if bitops then .rmb3 lo else .nop1 op, .sec, .and (.mem (.aby w)), .dec .acc, .nop1 op,
   .bit (.mem (.abx w)), .and (.mem (.abx w)), .rol (.mem (.abx w)), if bitops then .bbr3 lo hi else .nop1 op]

/-- Row 4 of R83's table. -/
def opcodeRow4 (bitops : Bool) (op lo hi : Byte) (w : Addr) : List Instr :=
  [.rti, .eor (.mem (.izx lo)), .nop2 op lo, .nop1 op, .nop2 op lo, .eor (.mem (.zp lo)), .lsr (.mem (.zp lo)),
   if bitops then .rmb4 lo else .nop1 op, .pha, .eor (.imm lo), .lsr .acc, .nop1 op, .jmp (.abs w),
   .eor (.mem (.abs w)), .lsr (.mem (.abs w)), if bitops then .bbr4 lo hi else .nop1 op]

/-- Row 5 of R83's table. -/
def opcodeRow5 (bitops : Bool) (op lo hi : Byte) (w : Addr) : List Instr :=
  [.bvc lo, .eor (.mem (.izy lo)), .eor (.mem (.izp lo)), .nop1 op, .nop2 op lo, .eor (.mem (.zpx lo)),
   .lsr (.mem (.zpx lo)), if bitops then .rmb5 lo else .nop1 op, .cli, .eor (.mem (.aby w)), .phy, .nop1 op,
   .nop3 op w, .eor (.mem (.abx w)), .lsr (.mem (.abx w)), if bitops then .bbr5 lo hi else .nop1 op]

/-- Row 6 of R83's table. -/
def opcodeRow6 (bitops : Bool) (op lo hi : Byte) (w : Addr) : List Instr :=
  [.rts, .adc (.mem (.izx lo)), .nop2 op lo, .nop1 op, .stz (.zp lo), .adc (.mem (.zp lo)), .ror (.mem (.zp lo)),
   if bitops then .rmb6 lo else .nop1 op, .pla, .adc (.imm lo), .ror .acc, .nop1 op, .jmp (.ind w),
   .adc (.mem (.abs w)), .ror (.mem (.abs w)), if bitops then .bbr6 lo hi else .nop1 op]

/-- Row 7 of R83's table. -/
def opcodeRow7 (bitops : Bool) (op lo hi : Byte) (w : Addr) : List Instr :=
  [.bvs lo, .adc (.mem (.izy lo)), .adc (.mem (.izp lo)), .nop1 op, .stz (.zpx lo), .adc (.mem (.zpx lo)),
   .ror (.mem (.zpx lo)), if bitops then .rmb7 lo else .nop1 op, .sei, .adc (.mem (.aby w)), .ply, .nop1 op,
   .jmp (.iax w), .adc (.mem (.abx w)), .ror (.mem (.abx w)), if bitops then .bbr7 lo hi else .nop1 op]

/-- Row 8 of R83's table. -/
def opcodeRow8 (bitops : Bool) (op lo hi : Byte) (w : Addr) : List Instr :=
  [.bra lo, .sta (.izx lo), .nop2 op lo, .nop1 op, .sty (.zp lo), .sta (.zp lo), .stx (.zp lo),
   if bitops then .smb0 lo else .nop1 op, .dey, .bit (.imm lo), .txa, .nop1 op, .sty (.abs w), .sta (.abs w),
   .stx (.abs w), if bitops then .bbs0 lo hi else .nop1 op]

/-- Row 9 of R83's table. -/
def opcodeRow9 (bitops : Bool) (op lo hi : Byte) (w : Addr) : List Instr :=
  [.bcc lo, .sta (.izy lo), .sta (.izp lo), .nop1 op, .sty (.zpx lo), .sta (.zpx lo), .stx (.zpy lo),
   if bitops then .smb1 lo else .nop1 op, .tya, .sta (.aby w), .txs, .nop1 op, .stz (.abs w), .sta (.abx w),
   .stz (.abx w), if bitops then .bbs1 lo hi else .nop1 op]

/-- Row A of R83's table. -/
def opcodeRowA (bitops : Bool) (op lo hi : Byte) (w : Addr) : List Instr :=
  [.ldy (.imm lo), .lda (.mem (.izx lo)), .ldx (.imm lo), .nop1 op, .ldy (.mem (.zp lo)), .lda (.mem (.zp lo)),
   .ldx (.mem (.zp lo)), if bitops then .smb2 lo else .nop1 op, .tay, .lda (.imm lo), .tax, .nop1 op,
   .ldy (.mem (.abs w)), .lda (.mem (.abs w)), .ldx (.mem (.abs w)), if bitops then .bbs2 lo hi else .nop1 op]

/-- Row B of R83's table. -/
def opcodeRowB (bitops : Bool) (op lo hi : Byte) (w : Addr) : List Instr :=
  [.bcs lo, .lda (.mem (.izy lo)), .lda (.mem (.izp lo)), .nop1 op, .ldy (.mem (.zpx lo)), .lda (.mem (.zpx lo)),
   .ldx (.mem (.zpy lo)), if bitops then .smb3 lo else .nop1 op, .clv, .lda (.mem (.aby w)), .tsx, .nop1 op,
   .ldy (.mem (.abx w)), .lda (.mem (.abx w)), .ldx (.mem (.aby w)), if bitops then .bbs3 lo hi else .nop1 op]

/-- Row C of R83's table. -/
def opcodeRowC (bitops : Bool) (op lo hi : Byte) (w : Addr) : List Instr :=
  [.cpy (.imm lo), .cmp (.mem (.izx lo)), .nop2 op lo, .nop1 op, .cpy (.mem (.zp lo)), .cmp (.mem (.zp lo)),
   .dec (.mem (.zp lo)), if bitops then .smb4 lo else .nop1 op, .iny, .cmp (.imm lo), .dex, .wai,
   .cpy (.mem (.abs w)), .cmp (.mem (.abs w)), .dec (.mem (.abs w)), if bitops then .bbs4 lo hi else .nop1 op]

/-- Row D of R83's table. -/
def opcodeRowD (bitops : Bool) (op lo hi : Byte) (w : Addr) : List Instr :=
  [.bne lo, .cmp (.mem (.izy lo)), .cmp (.mem (.izp lo)), .nop1 op, .nop2 op lo, .cmp (.mem (.zpx lo)),
   .dec (.mem (.zpx lo)), if bitops then .smb5 lo else .nop1 op, .cld, .cmp (.mem (.aby w)), .phx, .stp,
   .nop3 op w, .cmp (.mem (.abx w)), .dec (.mem (.abx w)), if bitops then .bbs5 lo hi else .nop1 op]

/-- Row E of R83's table. -/
def opcodeRowE (bitops : Bool) (op lo hi : Byte) (w : Addr) : List Instr :=
  [.cpx (.imm lo), .sbc (.mem (.izx lo)), .nop2 op lo, .nop1 op, .cpx (.mem (.zp lo)), .sbc (.mem (.zp lo)),
   .inc (.mem (.zp lo)), if bitops then .smb6 lo else .nop1 op, .inx, .sbc (.imm lo), .nop, .nop1 op,
   .cpx (.mem (.abs w)), .sbc (.mem (.abs w)), .inc (.mem (.abs w)), if bitops then .bbs6 lo hi else .nop1 op]

/-- Row F of R83's table. -/
def opcodeRowF (bitops : Bool) (op lo hi : Byte) (w : Addr) : List Instr :=
  [.beq lo, .sbc (.mem (.izy lo)), .sbc (.mem (.izp lo)), .nop1 op, .nop2 op lo, .sbc (.mem (.zpx lo)),
   .inc (.mem (.zpx lo)), if bitops then .smb7 lo else .nop1 op, .sed, .sbc (.mem (.aby w)), .plx, .nop1 op,
   .nop3 op w, .sbc (.mem (.abx w)), .inc (.mem (.abx w)), if bitops then .bbs7 lo hi else .nop1 op]

/-- R83: the row is the high nibble of the opcode. -/
def opcodeRow (bitops : Bool) (op lo hi : Byte) (w : Addr) : Nat → List Instr
  | 0 => opcodeRow0 bitops op lo hi w
  | 1 => opcodeRow1 bitops op lo hi w
  | 2 => opcodeRow2 bitops op lo hi w
  | 3 => opcodeRow3 bitops op lo hi w
  | 4 => opcodeRow4 bitops op lo hi w
  | 5 => opcodeRow5 bitops op lo hi w
  | 6 => opcodeRow6 bitops op lo hi w
  | 7 => opcodeRow7 bitops op lo hi w
  | 8 => opcodeRow8 bitops op lo hi w
  | 9 => opcodeRow9 bitops op lo hi w
  | 10 => opcodeRowA bitops op lo hi w
  | 11 => opcodeRowB bitops op lo hi w
  | 12 => opcodeRowC bitops op lo hi w
  | 13 => opcodeRowD bitops op lo hi w
  | 14 => opcodeRowE bitops op lo hi w
  | _ => opcodeRowF bitops op lo hi w

/-- R80, R87: the whole first byte selects the entry; the next two bytes are the operand bytes, used as R82 says. -/
def decodeOp (bitops : Bool) (op lo hi : Byte) : Instr :=
  (opcodeRow bitops op lo hi (pair hi lo) (op.toNat / 16)).getD (op.toNat % 16) (.nop1 op)

/-- The instruction at the head of a list of bytes and the bytes after it. -/
def decode (bitops : Bool) : List Byte → Except DecodeError (Instr × List Byte)
  | [] => .error .noOpcode
  | op :: rest =>
    let i := decodeOp bitops op (rest.getD 0 0) (rest.getD 1 0)
    if i.length ≤ rest.length + 1 then .ok (i, rest.drop (i.length - 1)) else .error (.missingOperand op)

/-! ## Encoder -/

/-- The opcode of a member of the group `ORA AND EOR ADC STA LDA CMP SBC`, whose modes lie at fixed distances from `base` (R84). -/
def aluOpcode (base : Byte) : MemMode → Option Byte
  | .izx _ => some (base + 0x01)
  | .zp _ => some (base + 0x05)
  | .abs _ => some (base + 0x0D)
  | .izy _ => some (base + 0x11)
  | .izp _ => some (base + 0x12)
  | .zpx _ => some (base + 0x15)
  | .aby _ => some (base + 0x19)
  | .abx _ => some (base + 0x1D)
  | .zpy _ => none

/-- The same group with its immediate form (R84). -/
def aluOperandOpcode (base : Byte) : Operand → Option Byte
  | .imm _ => some (base + 0x09)
  | .mem m => aluOpcode base m

/-- The opcode of a mnemonic with the modes `ZP ZPX ABS ABX` (R84). -/
def indexedXOpcode (zp zpx abs abx : Byte) : MemMode → Option Byte
  | .zp _ => some zp
  | .zpx _ => some zpx
  | .abs _ => some abs
  | .abx _ => some abx
  | .zpy _ | .aby _ | .izx _ | .izy _ | .izp _ => none

/-- The opcode of a mnemonic with the modes `ZP ABS` (R84). -/
def plainOpcode (zp abs : Byte) : MemMode → Option Byte
  | .zp _ => some zp
  | .abs _ => some abs
  | .zpx _ | .zpy _ | .abx _ | .aby _ | .izx _ | .izy _ | .izp _ => none

/-- The opcode of a shift, rotate, increment or decrement (R84). -/
def rmwOpcode (acc zp zpx abs abx : Byte) : RmwOperand → Option Byte
  | .acc => some acc
  | .mem m => indexedXOpcode zp zpx abs abx m

/-- `LDX` (R84). -/
def ldxOpcode : Operand → Option Byte
  | .imm _ => some 0xA2
  | .mem (.zp _) => some 0xA6
  | .mem (.zpy _) => some 0xB6
  | .mem (.abs _) => some 0xAE
  | .mem (.aby _) => some 0xBE
  | .mem (.zpx _) | .mem (.abx _) | .mem (.izx _) | .mem (.izy _) | .mem (.izp _) => none

/-- `STX` (R84). -/
def stxOpcode : MemMode → Option Byte
  | .zp _ => some 0x86
  | .zpy _ => some 0x96
  | .abs _ => some 0x8E
  | .zpx _ | .abx _ | .aby _ | .izx _ | .izy _ | .izp _ => none

/-- `STY` (R84). -/
def styOpcode : MemMode → Option Byte
  | .zp _ => some 0x84
  | .zpx _ => some 0x94
  | .abs _ => some 0x8C
  | .zpy _ | .abx _ | .aby _ | .izx _ | .izy _ | .izp _ => none

/-- An immediate opcode beside a function for the memory modes. -/
def withImmediate (imm : Byte) (f : MemMode → Option Byte) : Operand → Option Byte
  | .imm _ => some imm
  | .mem m => f m

/-- `JMP` (R84). -/
def jmpOpcode : JumpTarget → Byte
  | .abs _ => 0x4C
  | .ind _ => 0x6C
  | .iax _ => 0x7C

/-- The opcode byte of R84 to R86; none for a mode the mnemonic does not have. -/
def Instr.opcode : Instr → Option Byte
  | .lda o => aluOperandOpcode 0xA0 o
  | .ldx o => ldxOpcode o
  | .ldy o => withImmediate 0xA0 (indexedXOpcode 0xA4 0xB4 0xAC 0xBC) o
  | .sta m => aluOpcode 0x80 m
  | .stx m => stxOpcode m
  | .sty m => styOpcode m
  | .stz m => indexedXOpcode 0x64 0x74 0x9C 0x9E m
  | .tax => some 0xAA
  | .tay => some 0xA8
  | .txa => some 0x8A
  | .tya => some 0x98
  | .tsx => some 0xBA
  | .txs => some 0x9A
  | .pha => some 0x48
  | .phx => some 0xDA
  | .phy => some 0x5A
  | .php => some 0x08
  | .pla => some 0x68
  | .plx => some 0xFA
  | .ply => some 0x7A
  | .plp => some 0x28
  | .adc o => aluOperandOpcode 0x60 o
  | .sbc o => aluOperandOpcode 0xE0 o
  | .and o => aluOperandOpcode 0x20 o
  | .ora o => aluOperandOpcode 0x00 o
  | .eor o => aluOperandOpcode 0x40 o
  | .cmp o => aluOperandOpcode 0xC0 o
  | .cpx o => withImmediate 0xE0 (plainOpcode 0xE4 0xEC) o
  | .cpy o => withImmediate 0xC0 (plainOpcode 0xC4 0xCC) o
  | .bit o => withImmediate 0x89 (indexedXOpcode 0x24 0x34 0x2C 0x3C) o
  | .tsb m => plainOpcode 0x04 0x0C m
  | .trb m => plainOpcode 0x14 0x1C m
  | .asl o => rmwOpcode 0x0A 0x06 0x16 0x0E 0x1E o
  | .lsr o => rmwOpcode 0x4A 0x46 0x56 0x4E 0x5E o
  | .rol o => rmwOpcode 0x2A 0x26 0x36 0x2E 0x3E o
  | .ror o => rmwOpcode 0x6A 0x66 0x76 0x6E 0x7E o
  | .inc o => rmwOpcode 0x1A 0xE6 0xF6 0xEE 0xFE o
  | .dec o => rmwOpcode 0x3A 0xC6 0xD6 0xCE 0xDE o
  | .inx => some 0xE8
  | .iny => some 0xC8
  | .dex => some 0xCA
  | .dey => some 0x88
  | .bcc _ => some 0x90
  | .bcs _ => some 0xB0
  | .beq _ => some 0xF0
  | .bne _ => some 0xD0
  | .bmi _ => some 0x30
  | .bpl _ => some 0x10
  | .bvc _ => some 0x50
  | .bvs _ => some 0x70
  | .bra _ => some 0x80
  | .jmp t => some (jmpOpcode t)
  | .jsr _ => some 0x20
  | .rts => some 0x60
  | .rti => some 0x40
  | .brk _ => some 0x00
  | .clc => some 0x18
  | .sec => some 0x38
  | .cli => some 0x58
  | .sei => some 0x78
  | .cld => some 0xD8
  | .sed => some 0xF8
  | .clv => some 0xB8
  | .nop => some 0xEA
  | .wai => some 0xCB
  | .stp => some 0xDB
  | .nop1 op => some op
  | .nop2 op _ => some op
  | .nop3 op _ => some op
  | .rmb0 _ => some 0x07
  | .rmb1 _ => some 0x17
  | .rmb2 _ => some 0x27
  | .rmb3 _ => some 0x37
  | .rmb4 _ => some 0x47
  | .rmb5 _ => some 0x57
  | .rmb6 _ => some 0x67
  | .rmb7 _ => some 0x77
  | .smb0 _ => some 0x87
  | .smb1 _ => some 0x97
  | .smb2 _ => some 0xA7
  | .smb3 _ => some 0xB7
  | .smb4 _ => some 0xC7
  | .smb5 _ => some 0xD7
  | .smb6 _ => some 0xE7
  | .smb7 _ => some 0xF7
  | .bbr0 _ _ => some 0x0F
  | .bbr1 _ _ => some 0x1F
  | .bbr2 _ _ => some 0x2F
  | .bbr3 _ _ => some 0x3F
  | .bbr4 _ _ => some 0x4F
  | .bbr5 _ _ => some 0x5F
  | .bbr6 _ _ => some 0x6F
  | .bbr7 _ _ => some 0x7F
  | .bbs0 _ _ => some 0x8F
  | .bbs1 _ _ => some 0x9F
  | .bbs2 _ _ => some 0xAF
  | .bbs3 _ _ => some 0xBF
  | .bbs4 _ _ => some 0xCF
  | .bbs5 _ _ => some 0xDF
  | .bbs6 _ _ => some 0xEF
  | .bbs7 _ _ => some 0xFF

/-- An address as operand bytes, low byte first (R81, R107). -/
def addrBytes (w : Addr) : List Byte := [loByte w, hiByte w]

/-- The operand bytes of a memory mode (R82). -/
def MemMode.bytes : MemMode → List Byte
  | .zp z => [z]
  | .zpx z => [z]
  | .zpy z => [z]
  | .abs w => addrBytes w
  | .abx w => addrBytes w
  | .aby w => addrBytes w
  | .izx z => [z]
  | .izy z => [z]
  | .izp z => [z]

/-- The operand bytes of a class R operand (R82). -/
def Operand.bytes : Operand → List Byte
  | .imm v => [v]
  | .mem m => m.bytes

/-- The operand bytes of a read-modify-write operand (R82). -/
def RmwOperand.bytes : RmwOperand → List Byte
  | .acc => []
  | .mem m => m.bytes

/-- The operand bytes of a jump (R82). -/
def JumpTarget.bytes : JumpTarget → List Byte
  | .abs w => addrBytes w
  | .ind w => addrBytes w
  | .iax w => addrBytes w

/-- The bytes after the opcode (R81, R82). -/
def Instr.operandBytes : Instr → List Byte
  | .lda o => o.bytes
  | .ldx o => o.bytes
  | .ldy o => o.bytes
  | .sta m => m.bytes
  | .stx m => m.bytes
  | .sty m => m.bytes
  | .stz m => m.bytes
  | .tax => []
  | .tay => []
  | .txa => []
  | .tya => []
  | .tsx => []
  | .txs => []
  | .pha => []
  | .phx => []
  | .phy => []
  | .php => []
  | .pla => []
  | .plx => []
  | .ply => []
  | .plp => []
  | .adc o => o.bytes
  | .sbc o => o.bytes
  | .and o => o.bytes
  | .ora o => o.bytes
  | .eor o => o.bytes
  | .cmp o => o.bytes
  | .cpx o => o.bytes
  | .cpy o => o.bytes
  | .bit o => o.bytes
  | .tsb m => m.bytes
  | .trb m => m.bytes
  | .asl o => o.bytes
  | .lsr o => o.bytes
  | .rol o => o.bytes
  | .ror o => o.bytes
  | .inc o => o.bytes
  | .dec o => o.bytes
  | .inx => []
  | .iny => []
  | .dex => []
  | .dey => []
  | .bcc b => [b]
  | .bcs b => [b]
  | .beq b => [b]
  | .bne b => [b]
  | .bmi b => [b]
  | .bpl b => [b]
  | .bvc b => [b]
  | .bvs b => [b]
  | .bra b => [b]
  | .jmp t => t.bytes
  | .jsr w => addrBytes w
  | .rts => []
  | .rti => []
  | .brk b => [b]
  | .clc => []
  | .sec => []
  | .cli => []
  | .sei => []
  | .cld => []
  | .sed => []
  | .clv => []
  | .nop => []
  | .wai => []
  | .stp => []
  | .nop1 _ => []
  | .nop2 _ b1 => [b1]
  | .nop3 _ w => addrBytes w
  | .rmb0 b => [b]
  | .rmb1 b => [b]
  | .rmb2 b => [b]
  | .rmb3 b => [b]
  | .rmb4 b => [b]
  | .rmb5 b => [b]
  | .rmb6 b => [b]
  | .rmb7 b => [b]
  | .smb0 b => [b]
  | .smb1 b => [b]
  | .smb2 b => [b]
  | .smb3 b => [b]
  | .smb4 b => [b]
  | .smb5 b => [b]
  | .smb6 b => [b]
  | .smb7 b => [b]
  | .bbr0 z off => [z, off]
  | .bbr1 z off => [z, off]
  | .bbr2 z off => [z, off]
  | .bbr3 z off => [z, off]
  | .bbr4 z off => [z, off]
  | .bbr5 z off => [z, off]
  | .bbr6 z off => [z, off]
  | .bbr7 z off => [z, off]
  | .bbs0 z off => [z, off]
  | .bbs1 z off => [z, off]
  | .bbs2 z off => [z, off]
  | .bbs3 z off => [z, off]
  | .bbs4 z off => [z, off]
  | .bbs5 z off => [z, off]
  | .bbs6 z off => [z, off]
  | .bbs7 z off => [z, off]

/-- The bytes of a well-formed instruction, opcode first; no bytes for a term that has no encoding. -/
def encode (i : Instr) : List Byte :=
  match i.opcode with
  | some op => op :: i.operandBytes
  | none => []

/-- Byte `k` of a word numbered as spec/opcode_table.json numbers it: byte 0 is bits 7:0. -/
def tableByte (nbits w k : Nat) : Byte := BitVec.ofNat 8 ((w % 2 ^ nbits) / 256 ^ k)

/-- The setting of `BITOPS` a table row speaks of: columns 7 and F have a one-byte row without it and a longer one with it (R86,
R90). DESIGN CHOICE (log 26). -/
def tableBitops (nbits w : Nat) : Bool := isBitopColumn (tableByte nbits w 0) && decide (8 < nbits)

/-- What the decoder reads from a row's word. -/
def decodeTableWord (nbits w : Nat) : Option Instr :=
  match decode (tableBitops nbits w) [tableByte nbits w 0, tableByte nbits w 1, tableByte nbits w 2] with
  | .ok (i, _) => some i
  | .error _ => none

end Sys2Proof
end

