-- ==== Sys2Proof/Machine/Fetch.lean ====
section
/-! DEFINITION. Fetching the instruction at `PC` (spec/40_addressing_modes.md R100) and placing one there. -/

namespace Sys2Proof.Machine

/-- The opcode of `JSR`, the one instruction that writes memory between the fetches of its operand bytes (R243). -/
def jsrOpcode : Byte := 0x20

/-- The opcode and the next two bytes, each as its own fetch will find it: the look-ahead follows the accesses of the
instruction, so that a data port or a pushed return address under `PC` is seen as the fetch sees it. DEDUCED (log 15). -/
def instrBytes (s : State) : Byte × Byte × Byte :=
  let op := peek s s.pc
  let s1 := fetchOpcode s
  let b1 := peek s1 s1.pc
  let s2 := fetchOperand s1
  let s3 := if op = jsrOpcode then callFrame s2 else s2
  (op, b1, peek s3 s3.pc)

/-- The instruction a core step executes (R100, spec/30_encoding.md R87). -/
def instrAt (s : State) : Instr :=
  let b := instrBytes s
  decodeOp s.params.bitops b.1 b.2.1 b.2.2

/-- An address whose byte a fetch finds as placed: RAM or a ROM window, outside the stack page that `JSR` writes. -/
def fetchable (mapctl : Byte) (a : Addr) : Bool :=
  match region mapctl a with
  | .ram => hiByte a != 1
  | .rom _ => true
  | .mapctl | .suzy _ | .mikey _ => false

/-- A byte placed where a fetch at `a` finds it: in the ROM image under a visible ROM window, in RAM elsewhere. -/
def placeByte (a : Addr) (v : Byte) (s : State) : State :=
  match region s.mapctl a with
  | .rom off => { s with params := { s.params with rom := Cells.write Memory.unlisted s.params.rom off v } }
  | .ram | .mapctl | .suzy _ | .mikey _ => s.writeRam a v

/-- Where an instruction is placed when `PC` does not point at memory that holds three bytes of one. -/
def codeAddr : Addr := 0x0200

/-- `PC`, if three bytes can be placed there. -/
def placeAt (s : State) : Addr :=
  if fetchable s.mapctl s.pc && fetchable s.mapctl (s.pc + 1) && fetchable s.mapctl (s.pc + 2) then s.pc else codeAddr

/-- `BITOPS` as a table row's word needs it (log 26). -/
def placeBitops (nbits w : Nat) (old : Bool) : Bool :=
  if isBitopColumn (tableByte nbits w 0) then tableBitops nbits w else old

/-- The state in which the next step fetches and executes the word: the core runs, no interrupt is ready, three bytes stand
at `PC`. -/
def placeWord (s : State) (nbits w : Nat) : State :=
  let at0 := placeAt s
  let s1 :=
    { s with
      pc := at0, run := .running, irqLine := false, nmiPending := false
      params := { s.params with bitops := placeBitops nbits w s.params.bitops } }
  placeByte (at0 + 2) (tableByte nbits w 2) (placeByte (at0 + 1) (tableByte nbits w 1) (placeByte at0 (tableByte nbits w 0) s1))

end Sys2Proof.Machine
end

