-- ==== Sys2Proof/Machine/Step.lean ====
section
/-! DEFINITION. One step of the platform (spec/60_exceptions.md R300, R301) and the placing of an instruction under `PC`. -/

namespace Sys2Proof.Machine

/-- `platform_step()` (R300): a core step (R301), then the devices. Log 27: a core step that fails is not followed by the
devices' tick. -/
def step (s : State) : Host.Outcome State Fault Refusal :=
  match boundary (beginStep s) with
  | .done t => .next (platformTick t)
  | .execute =>
    match exec (instrAt (beginStep s)) (beginStep s) with
    | .next t => .next (platformTick t)
    | .fault f => .fault f
    | .refused r => .refused r

/-- `s` with the word's bytes where the next step fetches them (log 3, log 26). -/
def State.withFetchWord (s : State) (nbits w : Nat) : State := placeWord s nbits w

end Sys2Proof.Machine
end

