-- ==== Sys2Proof/Machine/Eeprom.lean ====
section
/-! DEFINITION. The EEPROM's serial protocol (spec/60_exceptions.md R381). No register of the machine drives its pins (D42);
the two pin calls are operations of the host. -/

namespace Sys2Proof.Machine

/-- Address bits by chip (R381). -/
def EepromChip.addressBits : EepromChip → Nat
  | .none => 0
  | .c93c46 => 6
  | .c93c56 => 7
  | .c93c66 => 8
  | .c93c76 => 9
  | .c93c86 => 10

/-- The chip's word count, which R381 bound-checks against without stating it. DEDUCED (log 34): a word for every address of the
chip's width, of which spec/95 V5 gives only the 93C46's 64; no words without a chip. -/
def EepromChip.words : EepromChip → Nat
  | .none => 0
  | c => 2 ^ c.addressBits

/-- "Erased cells are `0xFFFF`" (R381). -/
def erased : BitVec 16 := 0xFFFF

/-- The word at an address; outside the chip it reads erased (DESIGN CHOICE, log 34: no address of a chip is outside it). -/
def Eeprom.word (e : Eeprom) (a : Nat) : BitVec 16 := if a < e.chip.words then Cells.read erased e.cells a else erased

/-- Store a word if the chip may be written and has the address (R381: "bound-check against the chip's word count"). -/
def Eeprom.store (e : Eeprom) (a : Nat) (v : BitVec 16) : Eeprom :=
  if e.writeEnabled ∧ a < e.chip.words then { e with cells := Cells.write erased e.cells a v } else e

/-- Store a word at every address (`WRAL`, `ERAL`). -/
def Eeprom.storeAll (e : Eeprom) (v : BitVec 16) : Eeprom :=
  (List.range e.chip.words).foldl (fun e a => e.store a v) e

/-- Back to Idle with the bit count cleared. -/
def Eeprom.toIdle (e : Eeprom) : Eeprom := { e with phase := .idle, bitCount := 0 }

/-- The two opcode bits after the start bit. -/
def Eeprom.command (e : Eeprom) : BitVec 2 := e.opcode.extractLsb' 0 2

/-- The top two bits of the address, which select the extended command (R381). -/
def Eeprom.extended (e : Eeprom) : Nat := e.address.toNat / 2 ^ (e.chip.addressBits - 2) % 4

/-- The dispatch at the end of the address phase (R381). -/
def Eeprom.dispatch (e : Eeprom) : Eeprom :=
  if e.command = 0b10 then { e with phase := .sendingData, bitCount := 0, data := e.word e.address.toNat }
  else if e.command = 0b01 then { e with phase := .receivingData, bitCount := 0, data := 0 }
  else if e.command = 0b11 then (e.store e.address.toNat erased).toIdle
  else if e.extended = 0b11 then { e with writeEnabled := true }.toIdle
  else if e.extended = 0b00 then { e with writeEnabled := false }.toIdle
  else if e.extended = 0b01 then { e with phase := .receivingData, bitCount := 0, data := 0 }
  else (e.storeAll erased).toIdle

/-- The received word is applied: at the address for `WRITE`, everywhere for `WRAL` (R381). -/
def Eeprom.apply (e : Eeprom) : Eeprom :=
  (if e.command = 0b01 then e.store e.address.toNat e.data else e.storeAll e.data).toIdle

/-- One clock edge with data-in `di` (R381). `dummy` is the level of the leading dummy bit of a READ. -/
def Eeprom.clock (dummy di : Bool) (e : Eeprom) : Eeprom :=
  match e.phase with
  | .idle => e
  | .receivingOpcode =>
    let op := e.opcode.extractLsb' 0 2 ++ BitVec.ofBool di
    if e.bitCount < 2 then { e with opcode := op, bitCount := e.bitCount + 1 }
    else if op.getLsbD 2 then { e with opcode := op, phase := .receivingAddress, bitCount := 0, address := 0 }
    else { e with opcode := op }.toIdle
  | .receivingAddress =>
    let e1 := { e with address := e.address.extractLsb' 0 9 ++ BitVec.ofBool di, bitCount := e.bitCount + 1 }
    if e1.bitCount < e.chip.addressBits then e1 else e1.dispatch
  | .receivingData =>
    let e1 := { e with data := e.data.extractLsb' 0 15 ++ BitVec.ofBool di, bitCount := e.bitCount + 1 }
    if e1.bitCount < 16 then e1 else e1.apply
  | .sendingData =>
    if e.bitCount = 0 then { e with dataOut := dummy, bitCount := 1 }
    else
      let e1 := { e with dataOut := e.data.getLsbD 15, data := e.data <<< 1, bitCount := e.bitCount + 1 }
      if e1.bitCount < 17 then e1 else e1.toIdle

/-- The chip-select pin (R381): a rising edge starts over and raises the data-out line. -/
def eepromSelect (level : Bool) (s : State) : State :=
  let e := s.eeprom
  if e.chip = .none then s.setEeprom { e with chipSelect := level }
  else if level && !e.chipSelect then
    s.setEeprom { e with chipSelect := true, phase := .receivingOpcode, bitCount := 0, opcode := 0, dataOut := true }
  else s.setEeprom { e with chipSelect := level }

/-- A clock edge (R381); the leading dummy bit of a READ is a free value (log 22). -/
def eepromClock (di : Bool) (s : State) : State :=
  let s1 := s.setEeprom (s.eeprom.clock (Config.eepromDummyBit s.freeCtr) di)
  if s.eeprom.phase = .sendingData ∧ s.eeprom.bitCount = 0 then s1.bumpFree else s1

end Sys2Proof.Machine
end

