-- ==== Sys2Proof/Machine/Reset.lean ====
section
/-! DEFINITION. Power-on, reset and the host's other calls between steps (spec/70_reset_and_hazards.md R400 to R403,
spec/60_exceptions.md R300). -/

namespace Sys2Proof.Machine

/-- `DeviceReset()` (R403): every device register 0; the inputs, the counters and the frame buffer that R401 names stay. DEDUCED
(log 30): `JOYSTICK` and `SWITCHES` stay, as R403 says, where R45's table has every Suzy register but `STALL_TOTAL` 0. DESIGN
CHOICE, unsafe (log 31): the EEPROM's opcode, address, data, bit count, chip-select level and data-out pin keep their values, of
which R45 and R403 say nothing. -/
def deviceReset (s : State) : State :=
  { s with
    timers := Vector.replicate 8 (Timer.afterReset s.cyc)
    pending := 0
    video :=
      { s.video with
        palG := Vector.replicate 16 0, palBR := Vector.replicate 16 0, dispctl := 0, dispadr := 0, scanline := 0 }
    suzy := Suzy.afterReset s.suzy.joystick s.suzy.switches s.suzy.stallTotal
    audio := { channels := Vector.replicate 4 (Channel.afterReset s.cyc), stereo := 0, pan := 0 }
    cart := { curBank := 0, shift := 0, addrCnt := 0 }
    eeprom := { s.eeprom with phase := .idle, writeEnabled := false } }

/-- `every Tn.LAST <- CYC; every audio LAST <- CYC` (R401). DEDUCED (log 30): R45's table has every audio field 0 after reset,
`LAST` among them, but names R400 to R403 as the procedure, whose last line this is. -/
def stampLast (s : State) : State :=
  let s1 := ([0, 1, 2, 3, 4, 5, 6, 7] : List (Fin 8)).foldl (fun s n => s.setTimer n { s.timers[n] with last := s.cyc }) s
  ([0, 1, 2, 3] : List (Fin 4)).foldl (fun s c => s.setChannel c { s.audio.channels[c] with last := s.cyc }) s1

/-- `reset()` (R401, R402), with the free input `RESET_S`. With `RESET_CYCLES` below 2, which R402 excludes, no idle cycle. -/
def hostReset (resetS : Byte) (s : State) : State :=
  let s1 := deviceReset { beginStep s with mapctl := 0x00 }
  let s2 := { s1 with sp := resetS, p := { s1.p with i := true, d := false }, run := .running, nmiPending := false }
  stampLast (recomputeIrq (loadVector resetVector (idle^[s2.params.resetCycles - 2] s2)))

/-- `power_on()` (R400), with the free inputs of R45; `ROM`, the cartridge image and the EEPROM contents are bound before. -/
def powerOn (inp : PowerOnInputs) (s : State) : State :=
  hostReset inp.sp
    { s with
      a := inp.a
      x := inp.x
      y := inp.y
      p := { s.p with n := inp.n, v := inp.v, z := inp.z, c := inp.c }
      ram := inp.ram
      cyc := 0
      nmiLine := false
      irqLine := false
      suzy := { s.suzy with joystick := inp.joystick, switches := inp.switches, stallTotal := 0 }
      video := { s.video with frames := 0, fb := [] } }

/-- What the host can do between two steps (R300); the last three are calls no register of the machine reaches (D42). -/
inductive HostInput where
  /-- `set_nmi_line` (R29, R310) -/
  | nmiLine (b : Bool)
  /-- `reset()` (R401) -/
  | reset (resetS : Byte)
  /-- `power_on()` (R400) -/
  | powerOn (inp : PowerOnInputs)
  /-- the joystick latch (R369) -/
  | joystick (v : Byte)
  /-- the switches latch (R369) -/
  | switches (v : Byte)
  /-- the EEPROM's chip-select pin (R381) -/
  | eepromSelect (level : Bool)
  /-- a clock edge at the EEPROM (R381) -/
  | eepromClock (di : Bool)
  /-- `CartSetPage` (R380) -/
  | cartPage (bank : Fin 2) (v : Byte)
deriving DecidableEq, Repr

/-- The state after a host input. Log 17: inputs come between steps, and `step` takes none. -/
def HostInput.apply (s : State) : HostInput → State
  | .nmiLine b => setNmiLine b s
  | .reset resetS => hostReset resetS s
  | .powerOn inp => Machine.powerOn inp s
  | .joystick v => s.setSuzy { s.suzy with joystick := v }
  | .switches v => s.setSuzy { s.suzy with switches := v }
  | .eepromSelect level => Machine.eepromSelect level s
  | .eepromClock di => Machine.eepromClock di s
  | .cartPage bank v => cartSetPage bank v s

end Sys2Proof.Machine
end

