-- ==== Sys2Proof/Machine/Timing.lean ====
section
/-! DEFINITION. The spec's tables of effective addresses and of cycle counts, as functions of the state in which an instruction
starts (spec/30_encoding.md R82, spec/40 R117, spec/70 R420). The step does not use them: there the counts emerge from the
accesses (R420), and the two are stated equal. -/

namespace Sys2Proof.Machine

/-- A pointer in page 0, with wrap (R110): page 0 is always RAM (R51). -/
def zeroPagePointer (s : State) (z : Byte) : Addr :=
  pair (Memory.read s.ram (zeroPage (z + 1))) (Memory.read s.ram (zeroPage z))

/-- The effective address of a memory mode (R104 to R112). -/
def effectiveAddress (m : MemMode) (s : State) : Addr :=
  match m with
  | .zp z => zeroPage z
  | .zpx z => zeroPage (z + s.x)
  | .zpy z => zeroPage (z + s.y)
  | .abs w => w
  | .abx w => indexed w s.x
  | .aby w => indexed w s.y
  | .izx z => zeroPagePointer s (z + s.x)
  | .izy z => indexed (zeroPagePointer s z) s.y
  | .izp z => zeroPagePointer s z

/-- One cycle more when a page is crossed (R119). -/
def pageExtra (w : Addr) (i : Byte) : Nat := if crosses w i then 1 else 0

/-- The column of class `R` (R117). -/
def readCycles (m : MemMode) (s : State) : Nat :=
  match m with
  | .zp _ => 3
  | .zpx _ => 4
  | .zpy _ => 4
  | .abs _ => 4
  | .abx w => 4 + pageExtra w s.x
  | .aby w => 4 + pageExtra w s.y
  | .izx _ => 6
  | .izy z => 5 + pageExtra (zeroPagePointer s z) s.y
  | .izp _ => 5

/-- The column of class `W` (R117). -/
def writeCycles : MemMode → Nat
  | .zp _ => 3
  | .zpx _ => 4
  | .zpy _ => 4
  | .abs _ => 4
  | .abx _ => 5
  | .aby _ => 5
  | .izx _ => 6
  | .izy _ => 6
  | .izp _ => 5

/-- R117's table. A class `M` access takes the two cycles of the read and the dummy read more than the write alone; the rows
where the table says "none" for class `M` belong to no instruction. -/
def memCycles (cls : AccessClass) (m : MemMode) (s : State) : Nat :=
  match cls with
  | .read => readCycles m s
  | .write => writeCycles m
  | .modify => writeCycles m + 2

/-- Class `R` with the immediate form (R117). -/
def operandCycles (o : Operand) (s : State) : Nat :=
  match o with
  | .imm _ => 2
  | .mem m => memCycles .read m s

/-- Class `M` with the accumulator form (R102, R117). -/
def rmwCycles (o : RmwOperand) (s : State) : Nat :=
  match o with
  | .acc => 2
  | .mem m => memCycles .modify m s

/-- The decimal cycle of `ADC` and `SBC` (R117, R419). -/
def decimalExtra (s : State) : Nat := if s.p.d then 1 else 0

/-- What a branch costs beyond its fetches (R230): 1 taken, 2 taken to another page than that of the next instruction. -/
def takenExtra (cond : Bool) (next : Addr) (off : Byte) : Nat :=
  if cond then (if hiByte (relative next off) = hiByte next then 1 else 2) else 0

/-- Branches (R420). -/
def branchCycles (cond : Bool) (next : Addr) (off : Byte) : Nat := 2 + takenExtra cond next off

/-- `BBRn`, `BBSn` (R283, R420). -/
def bitBranchCycles (cond : Bool) (next : Addr) (off : Byte) : Nat := 5 + takenExtra cond next off

/-- The bit of page 0 that `BBRn` and `BBSn` test (R283). -/
def zeroPageBit (n : Nat) (z : Byte) (s : State) : Bool := (Memory.read s.ram (zeroPage z)).getLsbD n

/-- `JMP` (R420). -/
def jumpCycles : JumpTarget → Nat
  | .abs _ => 3
  | .ind _ => 5
  | .iax _ => 6

/-- The cycles an instruction takes from state `s`, without the sprite engine's stall (R420). -/
def instrCycles (i : Instr) (s : State) : Nat :=
  match i with
  | .lda o => operandCycles o s
  | .ldx o => operandCycles o s
  | .ldy o => operandCycles o s
  | .sta m => memCycles .write m s
  | .stx m => memCycles .write m s
  | .sty m => memCycles .write m s
  | .stz m => memCycles .write m s
  | .tax => 2
  | .tay => 2
  | .txa => 2
  | .tya => 2
  | .tsx => 2
  | .txs => 2
  | .pha => 3
  | .phx => 3
  | .phy => 3
  | .php => 3
  | .pla => 4
  | .plx => 4
  | .ply => 4
  | .plp => 4
  | .adc o => operandCycles o s + decimalExtra s
  | .sbc o => operandCycles o s + decimalExtra s
  | .and o => operandCycles o s
  | .ora o => operandCycles o s
  | .eor o => operandCycles o s
  | .cmp o => operandCycles o s
  | .cpx o => operandCycles o s
  | .cpy o => operandCycles o s
  | .bit o => operandCycles o s
  | .tsb m => memCycles .modify m s
  | .trb m => memCycles .modify m s
  | .asl o => rmwCycles o s
  | .lsr o => rmwCycles o s
  | .rol o => rmwCycles o s
  | .ror o => rmwCycles o s
  | .inc o => rmwCycles o s
  | .dec o => rmwCycles o s
  | .inx => 2
  | .iny => 2
  | .dex => 2
  | .dey => 2
  | .bcc off => branchCycles (!s.p.c) (s.pc + 2) off
  | .bcs off => branchCycles (s.p.c) (s.pc + 2) off
  | .beq off => branchCycles (s.p.z) (s.pc + 2) off
  | .bne off => branchCycles (!s.p.z) (s.pc + 2) off
  | .bmi off => branchCycles (s.p.n) (s.pc + 2) off
  | .bpl off => branchCycles (!s.p.n) (s.pc + 2) off
  | .bvc off => branchCycles (!s.p.v) (s.pc + 2) off
  | .bvs off => branchCycles (s.p.v) (s.pc + 2) off
  | .bra off => branchCycles (true) (s.pc + 2) off
  | .jmp t => jumpCycles t
  | .jsr _ => 6
  | .rts => 6
  | .rti => 6
  | .brk _ => 7
  | .clc => 2
  | .sec => 2
  | .cli => 2
  | .sei => 2
  | .cld => 2
  | .sed => 2
  | .clv => 2
  | .nop => 2
  | .wai => 3
  | .stp => 3
  | .nop1 op => 1 + undefExtra s op
  | .nop2 op _ => 2 + undefExtra s op
  | .nop3 op _ => 3 + undefExtra s op
  | .rmb0 z => memCycles .modify (.zp z) s
  | .rmb1 z => memCycles .modify (.zp z) s
  | .rmb2 z => memCycles .modify (.zp z) s
  | .rmb3 z => memCycles .modify (.zp z) s
  | .rmb4 z => memCycles .modify (.zp z) s
  | .rmb5 z => memCycles .modify (.zp z) s
  | .rmb6 z => memCycles .modify (.zp z) s
  | .rmb7 z => memCycles .modify (.zp z) s
  | .smb0 z => memCycles .modify (.zp z) s
  | .smb1 z => memCycles .modify (.zp z) s
  | .smb2 z => memCycles .modify (.zp z) s
  | .smb3 z => memCycles .modify (.zp z) s
  | .smb4 z => memCycles .modify (.zp z) s
  | .smb5 z => memCycles .modify (.zp z) s
  | .smb6 z => memCycles .modify (.zp z) s
  | .smb7 z => memCycles .modify (.zp z) s
  | .bbr0 z off => bitBranchCycles (zeroPageBit 0 z s == false) (s.pc + 3) off
  | .bbr1 z off => bitBranchCycles (zeroPageBit 1 z s == false) (s.pc + 3) off
  | .bbr2 z off => bitBranchCycles (zeroPageBit 2 z s == false) (s.pc + 3) off
  | .bbr3 z off => bitBranchCycles (zeroPageBit 3 z s == false) (s.pc + 3) off
  | .bbr4 z off => bitBranchCycles (zeroPageBit 4 z s == false) (s.pc + 3) off
  | .bbr5 z off => bitBranchCycles (zeroPageBit 5 z s == false) (s.pc + 3) off
  | .bbr6 z off => bitBranchCycles (zeroPageBit 6 z s == false) (s.pc + 3) off
  | .bbr7 z off => bitBranchCycles (zeroPageBit 7 z s == false) (s.pc + 3) off
  | .bbs0 z off => bitBranchCycles (zeroPageBit 0 z s == true) (s.pc + 3) off
  | .bbs1 z off => bitBranchCycles (zeroPageBit 1 z s == true) (s.pc + 3) off
  | .bbs2 z off => bitBranchCycles (zeroPageBit 2 z s == true) (s.pc + 3) off
  | .bbs3 z off => bitBranchCycles (zeroPageBit 3 z s == true) (s.pc + 3) off
  | .bbs4 z off => bitBranchCycles (zeroPageBit 4 z s == true) (s.pc + 3) off
  | .bbs5 z off => bitBranchCycles (zeroPageBit 5 z s == true) (s.pc + 3) off
  | .bbs6 z off => bitBranchCycles (zeroPageBit 6 z s == true) (s.pc + 3) off
  | .bbs7 z off => bitBranchCycles (zeroPageBit 7 z s == true) (s.pc + 3) off

end Sys2Proof.Machine
end

