-- ==== Sys2Proof/Safety.lean ====
section
/-! DEFINITION. What the statements say of a run: the core registers as one value, the frame of an instruction (what it leaves
alone, how long it takes, what it writes), and the invariant that every step keeps. -/

namespace Sys2Proof.Machine

/-- The registers of the core (spec/10_state.md R20 to R24, R28). -/
structure CoreRegs where
  a : Byte
  x : Byte
  y : Byte
  sp : Byte
  pc : Addr
  p : Flags
  run : RunState
deriving DecidableEq, Repr

/-- The registers of the core in a state. -/
def State.core (s : State) : CoreRegs :=
  { a := s.a, x := s.x, y := s.y, sp := s.sp, pc := s.pc, p := s.p, run := s.run }

/-- The event is a bus write. -/
def BusEvent.isWrite : BusEvent → Bool
  | .write _ _ _ => true
  | .read _ _ _ | .idle => false

/-- The address answers as a cartridge data port, the only reads with a side effect (R360, R380). -/
def isPort (mapctl : Byte) (a : Addr) : Bool :=
  match region mapctl a with
  | .suzy off => off == 0xB2 || off == 0xB3
  | .mapctl | .mikey _ | .rom _ | .ram => false

/-- The event is a read of a cartridge data port. -/
def isPortRead (mapctl : Byte) : BusEvent → Bool
  | .read _ a _ => isPort mapctl a
  | .write _ _ _ | .idle => false

/-- How many of the events are reads of a cartridge data port, dummy reads included (R58, R414). -/
def portReads (mapctl : Byte) (ev : List BusEvent) : Nat := ev.countP (isPortRead mapctl)

/-- Everything outside the core's registers, RAM, the cycle counter, the event record and the cartridge's address counter is the
same: the interrupt inputs, `MAPCTL`, every device register, the parameters, the count of free values. -/
structure SameDevices (s t : State) : Prop where
  irqLine : t.irqLine = s.irqLine
  nmiLine : t.nmiLine = s.nmiLine
  nmiPending : t.nmiPending = s.nmiPending
  mapctl : t.mapctl = s.mapctl
  timers : t.timers = s.timers
  pending : t.pending = s.pending
  video : t.video = s.video
  suzy : t.suzy = s.suzy
  audio : t.audio = s.audio
  eeprom : t.eeprom = s.eeprom
  params : t.params = s.params
  freeCtr : t.freeCtr = s.freeCtr

/-- From `s` to `t` the core spent `n` cycles, each recorded, whose bus writes are `ws` (newest first) and whose reads moved the
cartridge's counter once for every read of a visible data port; RAM then reads as `mem`, in canonical form if it was; nothing
else outside the core's registers changed. -/
structure Frame (n : Nat) (ws : List BusEvent) (mem : Addr → Byte) (s t : State) : Prop where
  cycles : t.cyc = s.cyc + n
  events : ∃ ev, ev.length = n ∧ ev.filter BusEvent.isWrite = ws ∧ t.bus = ev ++ s.bus ∧
    t.cart = { s.cart with addrCnt := s.cart.addrCnt + BitVec.ofNat 20 (portReads s.mapctl ev) }
  memory : ∀ b, Memory.read t.ram b = mem b
  canonical : Memory.wf s.ram = true → Memory.wf t.ram = true
  devices : SameDevices s t

/-- A frame that writes nothing: `n` cycles of reads and idle cycles, every byte of RAM as before. -/
abbrev Quiet (n : Nat) (s t : State) : Prop := Frame n [] (Memory.read s.ram) s t

/-- RAM reads as before but for one byte. -/
def stored (s : State) (a : Addr) (v : Byte) (b : Addr) : Byte := if b = a then v else Memory.read s.ram b

/-- The operand a class R instruction reads: what its meaning uses, from the state it uses it in. -/
def operandValue (o : Operand) (s : State) : Byte := (readOperand o (fetchOpcode s)).1

/-- The address a class W instruction stores to: what its meaning uses, from the state it uses it in. -/
def storeAddress (m : MemMode) (s : State) : Addr := (resolve .write m (fetchOpcode s)).1

/-- The address a class M instruction reads and writes. -/
def modifyAddress (m : MemMode) (s : State) : Addr := (resolve .modify m (fetchOpcode s)).1

/-- The byte a class M instruction reads. -/
def modifyValue (m : MemMode) (s : State) : Byte :=
  let e := resolve .modify m (fetchOpcode s)
  peek e.2 e.1

/-- The next instruction's address after an instruction of `n` bytes. -/
def pcAfter (s : State) (n : Nat) : Addr := s.pc + BitVec.ofNat 16 n

/-- The status byte of R24: `{N, V, 1, B, D, I, Z, C}`. -/
def statusBits (b : Bool) (p : Flags) : Byte :=
  BitVec.ofBool p.n ++ BitVec.ofBool p.v ++ (1 : BitVec 1) ++ BitVec.ofBool b ++ BitVec.ofBool p.d ++ BitVec.ofBool p.i
    ++ BitVec.ofBool p.z ++ BitVec.ofBool p.c

/-- `t` is `s` after an exception was taken in `n` cycles (R246, R320, R322): the return address `ret` and the status byte with
bit 4 as `b` stand on the stack, three bytes down; `I` is set, `D` cleared only under `INT_CLEARS_D`; `PC` is the word at the
vector; nothing else changed. -/
def TakesException (n : Nat) (b : Bool) (ret vec : Addr) (s t : State) : Prop :=
  t.core =
    { s.core with
      sp := s.sp - 3
      pc := pair (peek s (vec + 1)) (peek s vec)
      p := { s.p with i := true, d := s.p.d && !s.params.intClearsD } } ∧
  Frame n
    [.write .stackWrite (stackAddr (s.sp - 2)) (statusBits b s.p), .write .stackWrite (stackAddr (s.sp - 1)) (loByte ret),
     .write .stackWrite (stackAddr s.sp) (hiByte ret)]
    (fun a =>
      if a = stackAddr (s.sp - 2) then statusBits b s.p
      else if a = stackAddr (s.sp - 1) then loByte ret
      else if a = stackAddr s.sp then hiByte ret
      else Memory.read s.ram a) s t

/-- The core is at a boundary at which it executes an instruction: it runs, no NMI is latched, no IRQ is both asserted and
honoured (R301). -/
def Executes (s : State) : Prop := s.run = .running ∧ s.nmiPending = false ∧ (s.irqLine = true → s.p.i = true)

/-- The bytes an instruction fetched, first to last, as the event record (newest first) has them. -/
def fetchedBytes (bus : List BusEvent) : List Byte :=
  (bus.filterMap fun e =>
    match e with
    | .read .execOpCode _ v => some v
    | .read .execOperand _ v => some v
    | .read .read _ _ | .read .dummyRead _ _ | .read .stackRead _ _ | .read .vectorRead _ _ => none
    | .write _ _ _ | .idle => none).reverse

/-- R20: the instructions that write `A`. -/
def writesA : Instr → Bool
  | .lda _ | .pla | .txa | .tya | .adc _ | .sbc _ | .and _ | .ora _ | .eor _ => true
  | .asl .acc | .lsr .acc | .rol .acc | .ror .acc | .inc .acc | .dec .acc => true
  | _ => false

/-- R21: the instructions that write `X`. -/
def writesX : Instr → Bool
  | .ldx _ | .tax | .tsx | .plx | .inx | .dex => true
  | _ => false

/-- R21: the instructions that write `Y`. -/
def writesY : Instr → Bool
  | .ldy _ | .tay | .ply | .iny | .dey => true
  | _ => false

/-- R22: `TXS`, and the instructions that push or pull. -/
def writesS : Instr → Bool
  | .txs | .pha | .phx | .phy | .php | .pla | .plx | .ply | .plp | .jsr _ | .rts | .rti | .brk _ => true
  | _ => false

/-- R26, row `Z`. -/
def writesZ : Instr → Bool
  | .lda _ | .ldx _ | .ldy _ | .tax | .tay | .txa | .tya | .tsx | .pla | .plx | .ply => true
  | .and _ | .ora _ | .eor _ | .adc _ | .sbc _ | .cmp _ | .cpx _ | .cpy _ | .bit _ | .tsb _ | .trb _ => true
  | .inc _ | .dec _ | .inx | .iny | .dex | .dey | .asl _ | .lsr _ | .rol _ | .ror _ | .plp | .rti => true
  | _ => false

/-- R26, row `N`: as `Z`, but for `TSB`, `TRB` and `BIT` immediate. -/
def writesN : Instr → Bool
  | .tsb _ | .trb _ | .bit (.imm _) => false
  | i => writesZ i

/-- R26, row `C`. -/
def writesC : Instr → Bool
  | .adc _ | .sbc _ | .cmp _ | .cpx _ | .cpy _ | .asl _ | .lsr _ | .rol _ | .ror _ | .clc | .sec | .plp | .rti => true
  | _ => false

/-- R26, row `V`. -/
def writesV : Instr → Bool
  | .adc _ | .sbc _ | .bit (.mem _) | .clv | .plp | .rti => true
  | _ => false

/-- R26, row `D`. -/
def writesD : Instr → Bool
  | .sed | .cld | .plp | .rti => true
  | _ => false

/-- R26, row `I`. -/
def writesI : Instr → Bool
  | .sei | .cli | .plp | .rti | .brk _ => true
  | _ => false

/-- The instructions whose rules list a `MemWrite` or a `Push`. -/
def writesMemory : Instr → Bool
  | .sta _ | .stx _ | .sty _ | .stz _ | .tsb _ | .trb _ | .pha | .phx | .phy | .php | .jsr _ | .brk _ => true
  | .asl (.mem _) | .lsr (.mem _) | .rol (.mem _) | .ror (.mem _) | .inc (.mem _) | .dec (.mem _) => true
  | .rmb0 _ | .rmb1 _ | .rmb2 _ | .rmb3 _ | .rmb4 _ | .rmb5 _ | .rmb6 _ | .rmb7 _ => true
  | .smb0 _ | .smb1 _ | .smb2 _ | .smb3 _ | .smb4 _ | .smb5 _ | .smb6 _ | .smb7 _ => true
  | _ => false

/-- Frame-buffer words in all (spec/60_exceptions.md R350). -/
def displayPixels : Nat := displayWidth * displayHeight

/-- What every step keeps: the sparse memories in their canonical form (RAM, frame buffer, EEPROM), the sprite engine at rest
between steps (R361), and no timer or audio channel ahead of the device clock (R343, R371, R412). -/
structure Inv (s : State) : Prop where
  ram : Memory.wf s.ram = true
  fb : Cells.wfFrom black displayPixels 0 s.video.fb = true
  eeprom : Cells.wfFrom erased s.eeprom.chip.words 0 s.eeprom.cells = true
  busy : s.suzy.busy = false
  stall : s.suzy.stallTotal ≤ s.cyc
  timers : ∀ n : Fin 8, s.timers[n].last ≤ deviceTime s
  channels : ∀ c : Fin 4, s.audio.channels[c].last ≤ deviceTime s

end Sys2Proof.Machine
end

