-- ==== Sys2Proof/Certificates/Slice0/Obligations.lean ====
section
/-! DEFINITION. The statements for the provers, family by family; OBLIGATIONS.json lists them. In every statement about an
instruction `exec` starts with `PC` at the opcode, as a step leaves it (spec/40_addressing_modes.md R100). -/

section

open Sys2Proof Sys2Proof.Machine

/-! ## Encoding -/

/-- R83 to R87: decoding the bytes of a well-formed instruction gives it back and leaves what follows. -/
def Obligations.DecodeOfEncodeIsTheInstruction : Prop :=
  ∀ (bitops : Bool) (i : Instr) (rest : List Byte), i.wf bitops = true →
    (encode i).length = i.length ∧ decode bitops (encode i ++ rest) = .ok (i, rest)

/-- R83 to R87, the other direction: any three bytes begin with one well-formed instruction, and its encoding is the bytes it was
read from. -/
def Obligations.EveryByteStringDecodesToItsOwnEncoding : Prop :=
  ∀ (bitops : Bool) (op b1 b2 : Byte),
    let i := decodeOp bitops op b1 b2
    i.wf bitops = true ∧ 1 ≤ i.length ∧ i.length ≤ 3 ∧ encode i = [op, b1, b2].take i.length ∧
      (∀ rest, decode bitops (op :: b1 :: b2 :: rest) = .ok (i, (op :: b1 :: b2 :: rest).drop i.length))

/-- R84, R85, R86: some words written out from the tables, one or more of each family. -/
def Obligations.DecodedWordsOfEachFamily : Prop :=
  decode false [0xBD, 0x34, 0x12] = .ok (.lda (.mem (.abx 0x1234)), []) ∧
  decode false [0x96, 0x10] = .ok (.stx (.zpy 0x10), []) ∧
  decode false [0x9A] = .ok (.txs, []) ∧
  decode false [0x7A] = .ok (.ply, []) ∧
  decode false [0x72, 0x20] = .ok (.adc (.mem (.izp 0x20)), []) ∧
  decode false [0x89, 0xC0] = .ok (.bit (.imm 0xC0), []) ∧
  decode false [0x1C, 0x00, 0x30] = .ok (.trb (.abs 0x3000), []) ∧
  decode false [0x3A] = .ok (.dec .acc, []) ∧
  decode false [0x80, 0xFE] = .ok (.bra 0xFE, []) ∧
  decode false [0x7C, 0x00, 0x30] = .ok (.jmp (.iax 0x3000), []) ∧
  decode false [0x00, 0xEA] = .ok (.brk 0xEA, []) ∧
  decode false [0xCB] = .ok (.wai, []) ∧
  decode false [0x5C, 0x34, 0x12] = .ok (.nop3 0x5C 0x1234, []) ∧
  decode false [0x37, 0x10] = .ok (.nop1 0x37, [0x10]) ∧
  decode true [0x37, 0x10] = .ok (.rmb3 0x10, []) ∧
  decode true [0xFF, 0x20, 0xFD] = .ok (.bbs7 0x20 0xFD, [])

/-! ## Operands -/

/-- R119, R118: an index crosses a page iff the low bytes add to 256 or more, iff the high byte of the sum differs; where it does
not, the uncarried sum is the effective address. -/
def Obligations.PageCrossingIsACarryOutOfTheLowByte : Prop :=
  ∀ (base : Addr) (i : Byte),
    (crosses base i = true ↔ 256 ≤ (loByte base).toNat + i.toNat) ∧
    (crosses base i = true ↔ hiByte (indexed base i) ≠ hiByte base) ∧
    (crosses base i = false → uncarried base i = indexed base i)

/-- R101 to R112, R117: the effective addresses of the three access classes are the table's, and the byte a class R or M
instruction reads is the one at that address after the accesses that resolve it, which write nothing; it is the byte there
before the instruction unless the address is a cartridge data port. -/
def Obligations.OperandsComeFromTheEffectiveAddress : Prop :=
  (∀ (v : Byte) (s : State), operandValue (.imm v) s = v) ∧
  ∀ (m : MemMode) (s : State),
    storeAddress m s = effectiveAddress m s ∧ modifyAddress m s = effectiveAddress m s ∧
    (∃ u, Quiet (readCycles m s - 1) s u ∧ operandValue (.mem m) s = peek u (effectiveAddress m s)) ∧
    (∃ u, Quiet (writeCycles m - 1) s u ∧ modifyValue m s = peek u (effectiveAddress m s)) ∧
    (isPort s.mapctl (effectiveAddress m s) = false →
      operandValue (.mem m) s = peek s (effectiveAddress m s) ∧ modifyValue m s = peek s (effectiveAddress m s))

/-! ## Loads, stores, transfers, stack (spec/41_load_store_transfer.md) -/

/-- R130, R131, R132. -/
def Obligations.LoadsWriteTheirRegisterAndNZ : Prop :=
  ∀ (o : Operand) (s : State),
    let v := operandValue o s
    let p' : Flags := { s.p with n := v.getLsbD 7, z := decide (v = 0) }
    let pc' := pcAfter s o.length
    (∃ t, exec (.lda o) s = .next t ∧ t.core = { s.core with a := v, p := p', pc := pc' } ∧ Quiet (operandCycles o s) s t) ∧
    (∃ t, exec (.ldx o) s = .next t ∧ t.core = { s.core with x := v, p := p', pc := pc' } ∧ Quiet (operandCycles o s) s t) ∧
    (∃ t, exec (.ldy o) s = .next t ∧ t.core = { s.core with y := v, p := p', pc := pc' } ∧ Quiet (operandCycles o s) s t)

/-- R133 to R136, for every address: reads that resolve the address, then one bus write of the register there. No flag. -/
def Obligations.StoresAreOneBusWriteAtTheirAddress : Prop :=
  ∀ (m : MemMode) (s : State),
    ∀ c ∈ ([(.sta m, s.a), (.stx m, s.x), (.sty m, s.y), (.stz m, 0x00)] : List (Instr × Byte)),
      ∃ u t, exec c.1 s = .next t ∧ t = memWrite .write (storeAddress m s) c.2 u ∧ Quiet (writeCycles m - 1) s u ∧
        u.core = { s.core with pc := pcAfter s (1 + m.operandBytes) } ∧ t.core = u.core

/-- R133 to R136 with R54, R57: what a store changes, by what answers at its address; of a device register, what it leaves alone
(what it does to the register is `StoresAreOneBusWriteAtTheirAddress` with `OverlaysHideAndKeepWhatIsUnderThem`, and, for the
registers with an action of their own, the statements about them). -/
def Obligations.StoresChangeOneByteOfMemory : Prop :=
  ∀ (m : MemMode) (s : State), Memory.wf s.ram = true →
    ∀ c ∈ ([(.sta m, s.a), (.stx m, s.x), (.sty m, s.y), (.stz m, 0x00)] : List (Instr × Byte)),
      let ea := storeAddress m s
      let core' : CoreRegs := { s.core with pc := pcAfter s (1 + m.operandBytes) }
      (region s.mapctl ea = .ram →
        ∃ t, exec c.1 s = .next t ∧ t.core = core' ∧
          Frame (writeCycles m) [.write .write ea c.2] (stored s ea c.2) s t) ∧
      (∀ off, region s.mapctl ea = .rom off →
        ∃ t, exec c.1 s = .next t ∧ t.core = core' ∧
          Frame (writeCycles m) [.write .write ea c.2]
            (if s.params.romWriteThrough then stored s ea c.2 else Memory.read s.ram) s t) ∧
      (region s.mapctl ea = .mapctl →
        ∃ t, exec c.1 s = .next t ∧ t.core = core' ∧ t.mapctl = c.2 ∧ t.cyc = s.cyc + writeCycles m ∧
          (∀ b, Memory.read t.ram b = Memory.read s.ram b) ∧ SameDevices s { t with mapctl := s.mapctl }) ∧
      (∀ off, region s.mapctl ea = .mikey off →
        ∃ t, exec c.1 s = .next t ∧ t.core = core' ∧ t.cyc = s.cyc + writeCycles m ∧ t.suzy = s.suzy ∧
          (∀ b, Memory.read t.ram b = Memory.read s.ram b)) ∧
      (∀ off, region s.mapctl ea = .suzy off → off ≠ 0x91 →
        ∃ t, exec c.1 s = .next t ∧ t.core = core' ∧ t.cyc = s.cyc + writeCycles m ∧ t.timers = s.timers ∧
          (∀ b, Memory.read t.ram b = Memory.read s.ram b))

/-- R137 to R142: two cycles, `N Z` from the byte moved, and `TXS` sets no flag. -/
def Obligations.TransfersMoveOneRegister : Prop :=
  ∀ s : State,
    let nz := fun v : Byte => ({ s.p with n := v.getLsbD 7, z := decide (v = 0) } : Flags)
    let pc' := pcAfter s 1
    (∃ t, exec .tax s = .next t ∧ t.core = { s.core with x := s.a, p := nz s.a, pc := pc' } ∧ Quiet 2 s t) ∧
    (∃ t, exec .tay s = .next t ∧ t.core = { s.core with y := s.a, p := nz s.a, pc := pc' } ∧ Quiet 2 s t) ∧
    (∃ t, exec .txa s = .next t ∧ t.core = { s.core with a := s.x, p := nz s.x, pc := pc' } ∧ Quiet 2 s t) ∧
    (∃ t, exec .tya s = .next t ∧ t.core = { s.core with a := s.y, p := nz s.y, pc := pc' } ∧ Quiet 2 s t) ∧
    (∃ t, exec .tsx s = .next t ∧ t.core = { s.core with x := s.sp, p := nz s.sp, pc := pc' } ∧ Quiet 2 s t) ∧
    (∃ t, exec .txs s = .next t ∧ t.core = { s.core with sp := s.x, pc := pc' } ∧ Quiet 2 s t)

/-- R143 to R146: the byte goes to `0x0100 + S`, `S` goes down by one with wrap, no flag changes; `PHP` pushes bits 5 and 4 set. -/
def Obligations.PushesStoreAtTheStackPointer : Prop :=
  ∀ s : State, Memory.wf s.ram = true →
    ∀ c ∈ ([(.pha, s.a), (.phx, s.x), (.phy, s.y), (.php, statusBits true s.p)] : List (Instr × Byte)),
      ∃ t, exec c.1 s = .next t ∧ t.core = { s.core with sp := s.sp - 1, pc := pcAfter s 1 } ∧
        Frame 3 [.write .stackWrite (0x0100 + s.sp.setWidth 16) c.2] (stored s (0x0100 + s.sp.setWidth 16) c.2) s t

/-- R147 to R150: the byte comes from `0x0100 + S + 1`, wrapping inside page 1; `PLP` takes six flags from it and drops bits 5
and 4. -/
def Obligations.PullsReadAboveTheStackPointer : Prop :=
  ∀ s : State,
    let v := Memory.read s.ram (0x0100 + (s.sp + 1).setWidth 16)
    let nz : Flags := { s.p with n := v.getLsbD 7, z := decide (v = 0) }
    let core' : CoreRegs := { s.core with sp := s.sp + 1, pc := pcAfter s 1 }
    (∃ t, exec .pla s = .next t ∧ t.core = { core' with a := v, p := nz } ∧ Quiet 4 s t) ∧
    (∃ t, exec .plx s = .next t ∧ t.core = { core' with x := v, p := nz } ∧ Quiet 4 s t) ∧
    (∃ t, exec .ply s = .next t ∧ t.core = { core' with y := v, p := nz } ∧ Quiet 4 s t) ∧
    (∃ t, exec .plp s = .next t ∧
      t.core =
        { core' with
          p := { n := v.getLsbD 7, v := v.getLsbD 6, d := v.getLsbD 3, i := v.getLsbD 2, z := v.getLsbD 1,
                 c := v.getLsbD 0 } } ∧
      Quiet 4 s t)

/-- R25, R24: setting the status from any byte and reading it back gives `(v & 0xCF) | 0x20`; reading it and setting it back changes
no flag; bit 5 reads 1. `PLP` and `RTI` set it from the pulled byte; `PHP` and `BRK` push it with bit 4 set, an interrupt entry with
bit 4 clear. -/
def Obligations.StatusByteRoundTrip : Prop :=
  (∀ v : Byte, (Flags.setStatus v).getStatus = (v &&& 0xCF) ||| 0x20 ∧
    Flags.setStatus v =
      { n := v.getLsbD 7, v := v.getLsbD 6, d := v.getLsbD 3, i := v.getLsbD 2, z := v.getLsbD 1, c := v.getLsbD 0 }) ∧
  (∀ p : Flags, p.getStatus = statusBits false p ∧ p.getStatus.getLsbD 5 = true ∧ Flags.setStatus p.getStatus = p) ∧
  (∀ s : State,
    let v := Memory.read s.ram (stackAddr (s.sp + 1))
    (∃ t, exec .plp s = .next t ∧ t.p = Flags.setStatus v) ∧ (∃ t, exec .rti s = .next t ∧ t.p = Flags.setStatus v)) ∧
  ∀ s : State, Memory.wf s.ram = true →
    (∃ t, exec .php s = .next t ∧ Memory.read t.ram (stackAddr s.sp) = s.p.getStatus ||| 0x10) ∧
    (∀ sig, ∃ t, exec (.brk sig) s = .next t ∧ Memory.read t.ram (stackAddr (s.sp - 2)) = s.p.getStatus ||| 0x10) ∧
    (∀ t, s.run = .running → boundary s = .done t → Memory.read t.ram (stackAddr (s.sp - 2)) = s.p.getStatus)

/-! ## Arithmetic, logic, compare, bit test (spec/42_alu.md) -/

/-- R170, R174: binary `ADC`. `C` is the carry out of bit 7; `V` says that the signed sum left -128..127. -/
def Obligations.AdcBinaryAddsWithCarry : Prop :=
  ∀ (o : Operand) (s : State), s.p.d = false →
    let m := operandValue o s
    let sum := s.a.toNat + m.toNat + s.p.c.toNat
    let signed := s.a.toInt + m.toInt + (s.p.c.toNat : Int)
    let r : Byte := BitVec.ofNat 8 sum
    ∃ t, exec (.adc o) s = .next t ∧
      t.core =
        { s.core with
          a := r, pc := pcAfter s o.length
          p := { s.p with n := r.getLsbD 7, z := decide (r = 0), c := decide (256 ≤ sum),
                          v := decide (signed < -128 ∨ 127 < signed) } } ∧
      Quiet (operandCycles o s) s t

/-- R171, R175: binary `SBC`. `C` says that there was no borrow; `V` that the signed difference left -128..127. -/
def Obligations.SbcBinarySubtractsWithBorrow : Prop :=
  ∀ (o : Operand) (s : State), s.p.d = false →
    let m := operandValue o s
    let borrow := 1 - s.p.c.toNat
    let signed := s.a.toInt - m.toInt - (borrow : Int)
    let r : Byte := s.a - m - BitVec.ofNat 8 borrow
    ∃ t, exec (.sbc o) s = .next t ∧
      t.core =
        { s.core with
          a := r, pc := pcAfter s o.length
          p := { s.p with n := r.getLsbD 7, z := decide (r = 0), c := decide (m.toNat + borrow ≤ s.a.toNat),
                          v := decide (signed < -128 ∨ 127 < signed) } } ∧
      Quiet (operandCycles o s) s t

/-- R172, R173, R174, R175: decimal `ADC` and `SBC` on valid BCD operands, one cycle more. The result is valid BCD of the decimal sum
or difference modulo 100; `V` is some value the spec does not state (log 8), and one free value is used. -/
def Obligations.DecimalAddAndSubtractOnValidBcd : Prop :=
  ∀ (o : Operand) (s : State), s.p.d = true →
    let m := operandValue o s
    validBcd s.a = true → validBcd m = true →
    let sum := bcdValue s.a + bcdValue m + s.p.c.toNat
    let diff := (bcdValue s.a : Int) - (bcdValue m : Int) - (1 - (s.p.c.toNat : Int))
    (∃ t r v, exec (.adc o) s = .next t ∧ validBcd r = true ∧ bcdValue r = sum % 100 ∧
      t.core =
        { s.core with
          a := r, pc := pcAfter s o.length
          p := { s.p with n := r.getLsbD 7, z := decide (r = 0), c := decide (100 ≤ sum), v := v } } ∧
      Quiet (operandCycles o s + 1) s.bumpFree t) ∧
    (∃ t r v, exec (.sbc o) s = .next t ∧ validBcd r = true ∧ (bcdValue r : Int) = diff % 100 ∧
      t.core =
        { s.core with
          a := r, pc := pcAfter s o.length
          p := { s.p with n := r.getLsbD 7, z := decide (r = 0), c := decide (0 ≤ diff), v := v } } ∧
      Quiet (operandCycles o s + 1) s.bumpFree t)

/-- R172, R173: on an operand that is not valid BCD, decimal `ADC` and `SBC` still complete in the same cycles and write nothing but
`A` and `N V Z C`, whose values the spec does not state (log 9). -/
def Obligations.DecimalOnInvalidBcdCompletes : Prop :=
  ∀ (o : Operand) (s : State), s.p.d = true → (validBcd s.a && validBcd (operandValue o s)) = false →
    ∀ i ∈ ([.adc o, .sbc o] : List Instr),
      ∃ t r n v z c, exec i s = .next t ∧
        t.core = { s.core with a := r, pc := pcAfter s o.length, p := { s.p with n := n, v := v, z := z, c := c } } ∧
        Quiet (operandCycles o s + 1) s.bumpFree t

/-- R176, R177, R178. -/
def Obligations.LogicWritesAccumulatorAndNZ : Prop :=
  ∀ (o : Operand) (s : State),
    let m := operandValue o s
    ∀ c ∈ ([(.and o, s.a &&& m), (.ora o, s.a ||| m), (.eor o, s.a ^^^ m)] : List (Instr × Byte)),
      ∃ t, exec c.1 s = .next t ∧
        t.core =
          { s.core with
            a := c.2, pc := pcAfter s o.length, p := { s.p with n := c.2.getLsbD 7, z := decide (c.2 = 0) } } ∧
        Quiet (operandCycles o s) s t

/-- R179, R180, R181: `C` iff the register is at least the operand, unsigned; `N` and `Z` from the difference; no register
changes. -/
def Obligations.ComparesWriteOnlyNZC : Prop :=
  ∀ (o : Operand) (s : State),
    let m := operandValue o s
    ∀ c ∈ ([(.cmp o, s.a), (.cpx o, s.x), (.cpy o, s.y)] : List (Instr × Byte)),
      ∃ t, exec c.1 s = .next t ∧
        t.core =
          { s.core with
            pc := pcAfter s o.length
            p := { s.p with n := (c.2 - m).getLsbD 7, z := decide (c.2 = m), c := decide (m.toNat ≤ c.2.toNat) } } ∧
        Quiet (operandCycles o s) s t

/-- R182: `BIT` immediate writes `Z` only; from memory `N` and `V` are bits 7 and 6 of the operand. -/
def Obligations.BitTestsWithoutChangingA : Prop :=
  ∀ (v : Byte) (m : MemMode) (s : State),
    (∃ t, exec (.bit (.imm v)) s = .next t ∧
      t.core = { s.core with pc := pcAfter s 2, p := { s.p with z := decide (s.a &&& v = 0) } } ∧ Quiet 2 s t) ∧
    (∃ t, exec (.bit (.mem m)) s = .next t ∧
      t.core =
        { s.core with
          pc := pcAfter s (1 + m.operandBytes)
          p := { s.p with
                 z := decide (s.a &&& operandValue (.mem m) s = 0)
                 n := (operandValue (.mem m) s).getLsbD 7
                 v := (operandValue (.mem m) s).getLsbD 6 } } ∧
      Quiet (readCycles m s) s t)

/-! ## Read-modify-write (spec/43_rmw_shift_incdec.md, R183, R184) -/

/-- R200 to R206, R183, R184: in memory, for every address: read, dummy read and one write at the same address, the flags of the
instruction, no register. -/
def Obligations.ReadModifyWriteIsOneWriteOfTheNewByte : Prop :=
  ∀ (m : MemMode) (s : State),
    let v := modifyValue m s
    let nz := fun (r : Byte) (p : Flags) => ({ p with n := r.getLsbD 7, z := decide (r = 0) } : Flags)
    let cin : Byte := if s.p.c then 1 else 0
    ∀ c ∈ ([(.asl (.mem m), v <<< 1, nz (v <<< 1) { s.p with c := v.getLsbD 7 }),
            (.lsr (.mem m), v >>> 1, nz (v >>> 1) { s.p with c := v.getLsbD 0 }),
            (.rol (.mem m), v <<< 1 ||| cin, nz (v <<< 1 ||| cin) { s.p with c := v.getLsbD 7 }),
            (.ror (.mem m), v >>> 1 ||| cin <<< 7, nz (v >>> 1 ||| cin <<< 7) { s.p with c := v.getLsbD 0 }),
            (.inc (.mem m), v + 1, nz (v + 1) s.p),
            (.dec (.mem m), v - 1, nz (v - 1) s.p),
            (.tsb m, v ||| s.a, { s.p with z := decide (s.a &&& v = 0) }),
            (.trb m, v &&& ~~~s.a, { s.p with z := decide (s.a &&& v = 0) })] : List (Instr × Byte × Flags)),
      ∃ u t, exec c.1 s = .next t ∧ t = memWrite .write (modifyAddress m s) c.2.1 u ∧ Quiet (writeCycles m + 1) s u ∧
        u.core = { s.core with pc := pcAfter s (1 + m.operandBytes), p := c.2.2 } ∧ t.core = u.core

/-- The same in RAM: the byte at the address is the new one, every other byte is as before. -/
def Obligations.ReadModifyWriteChangesOneByteOfRam : Prop :=
  ∀ (m : MemMode) (s : State), Memory.wf s.ram = true → region s.mapctl (modifyAddress m s) = .ram →
    let ea := modifyAddress m s
    let v := modifyValue m s
    let cin : Byte := if s.p.c then 1 else 0
    ∀ c ∈ ([(.asl (.mem m), v <<< 1), (.lsr (.mem m), v >>> 1), (.rol (.mem m), v <<< 1 ||| cin),
            (.ror (.mem m), v >>> 1 ||| cin <<< 7), (.inc (.mem m), v + 1), (.dec (.mem m), v - 1),
            (.tsb m, v ||| s.a), (.trb m, v &&& ~~~s.a)] : List (Instr × Byte)),
      v = Memory.read s.ram ea ∧
      ∃ t p', exec c.1 s = .next t ∧ t.core = { s.core with pc := pcAfter s (1 + m.operandBytes), p := p' } ∧
        Frame (writeCycles m + 2) [.write .write ea c.2] (stored s ea c.2) s t

/-- R102, R201 to R206: the accumulator forms, two cycles, no memory. -/
def Obligations.AccumulatorFormsChangeOnlyA : Prop :=
  ∀ s : State,
    let v := s.a
    let nz := fun (r : Byte) (p : Flags) => ({ p with n := r.getLsbD 7, z := decide (r = 0) } : Flags)
    let cin : Byte := if s.p.c then 1 else 0
    ∀ c ∈ ([(.asl .acc, v <<< 1, nz (v <<< 1) { s.p with c := v.getLsbD 7 }),
            (.lsr .acc, v >>> 1, nz (v >>> 1) { s.p with c := v.getLsbD 0 }),
            (.rol .acc, v <<< 1 ||| cin, nz (v <<< 1 ||| cin) { s.p with c := v.getLsbD 7 }),
            (.ror .acc, v >>> 1 ||| cin <<< 7, nz (v >>> 1 ||| cin <<< 7) { s.p with c := v.getLsbD 0 }),
            (.inc .acc, v + 1, nz (v + 1) s.p),
            (.dec .acc, v - 1, nz (v - 1) s.p)] : List (Instr × Byte × Flags)),
      ∃ t, exec c.1 s = .next t ∧ t.core = { s.core with a := c.2.1, p := c.2.2, pc := pcAfter s 1 } ∧ Quiet 2 s t

/-- R207 to R210: the index registers wrap modulo 256; `C` and `V` stay. -/
def Obligations.IndexStepsWrapAndSetNZ : Prop :=
  ∀ s : State,
    let nz := fun r : Byte => ({ s.p with n := r.getLsbD 7, z := decide (r = 0) } : Flags)
    let pc' := pcAfter s 1
    (∃ t, exec .inx s = .next t ∧ t.core = { s.core with x := s.x + 1, p := nz (s.x + 1), pc := pc' } ∧ Quiet 2 s t) ∧
    (∃ t, exec .dex s = .next t ∧ t.core = { s.core with x := s.x - 1, p := nz (s.x - 1), pc := pc' } ∧ Quiet 2 s t) ∧
    (∃ t, exec .iny s = .next t ∧ t.core = { s.core with y := s.y + 1, p := nz (s.y + 1), pc := pc' } ∧ Quiet 2 s t) ∧
    (∃ t, exec .dey s = .next t ∧ t.core = { s.core with y := s.y - 1, p := nz (s.y - 1), pc := pc' } ∧ Quiet 2 s t)

/-! ## Control flow (spec/44_control_flow.md) -/

/-- R230 to R239: a taken branch goes to the next instruction's address plus the signed offset; 2 cycles, 3 taken, 4 taken to
another page. -/
def Obligations.BranchesTakeTheirCondition : Prop :=
  ∀ (off : Byte) (s : State),
    ∀ c ∈ ([(.bcc off, !s.p.c), (.bcs off, s.p.c), (.beq off, s.p.z), (.bne off, !s.p.z), (.bmi off, s.p.n),
            (.bpl off, !s.p.n), (.bvc off, !s.p.v), (.bvs off, s.p.v), (.bra off, true)] : List (Instr × Bool)),
      let next := pcAfter s 2
      let target : Addr := next + BitVec.ofInt 16 off.toInt
      ∃ t, exec c.1 s = .next t ∧ t.core = { s.core with pc := if c.2 then target else next } ∧
        Quiet (if c.2 then (if hiByte target = hiByte next then 3 else 4) else 2) s t

/-- R240, R241, R242: the three jumps. The pointer's second byte is at the next address, across a page and across `0xFFFF`. -/
def Obligations.JumpsGoToTheirTarget : Prop :=
  ∀ (w : Addr) (s : State),
    (∃ t, exec (.jmp (.abs w)) s = .next t ∧ t.core = { s.core with pc := w } ∧ Quiet 3 s t) ∧
    (∃ t, exec (.jmp (.ind w)) s = .next t ∧ (∃ pc', t.core = { s.core with pc := pc' }) ∧ Quiet 5 s t ∧
      (isPort s.mapctl w = false → isPort s.mapctl (w + 1) = false → t.pc = pair (peek s (w + 1)) (peek s w))) ∧
    (∃ t, exec (.jmp (.iax w)) s = .next t ∧ (∃ pc', t.core = { s.core with pc := pc' }) ∧ Quiet 6 s t ∧
      let q := w + s.x.setWidth 16
      (isPort s.mapctl q = false → isPort s.mapctl (q + 1) = false → t.pc = pair (peek s (q + 1)) (peek s q)))

/-- R243, R244: `JSR` pushes the address of its last byte, high byte first; `RTS` pulls a word and adds one. -/
def Obligations.CallAndReturnUseTheStack : Prop :=
  ∀ (w : Addr) (s : State),
    (Memory.wf s.ram = true →
      ∃ t, exec (.jsr w) s = .next t ∧ t.core = { s.core with sp := s.sp - 2, pc := w } ∧
        Frame 6
          [.write .stackWrite (stackAddr (s.sp - 1)) (loByte (pcAfter s 2)),
           .write .stackWrite (stackAddr s.sp) (hiByte (pcAfter s 2))]
          (fun a =>
            if a = stackAddr (s.sp - 1) then loByte (pcAfter s 2)
            else if a = stackAddr s.sp then hiByte (pcAfter s 2)
            else Memory.read s.ram a) s t) ∧
    (∃ t, exec .rts s = .next t ∧
      t.core =
        { s.core with
          sp := s.sp + 2
          pc := pair (Memory.read s.ram (stackAddr (s.sp + 2))) (Memory.read s.ram (stackAddr (s.sp + 1))) + 1 } ∧
      Quiet 6 s t)

/-- R245, R323: `RTI` pulls the six flags (bits 5 and 4 dropped), then `PC`, with no adjustment. -/
def Obligations.RtiRestoresFlagsAndPc : Prop :=
  ∀ s : State,
    let v := Memory.read s.ram (stackAddr (s.sp + 1))
    ∃ t, exec .rti s = .next t ∧
      t.core =
        { s.core with
          sp := s.sp + 3
          pc := pair (Memory.read s.ram (stackAddr (s.sp + 3))) (Memory.read s.ram (stackAddr (s.sp + 2)))
          p := { n := v.getLsbD 7, v := v.getLsbD 6, d := v.getLsbD 3, i := v.getLsbD 2, z := v.getLsbD 1,
                 c := v.getLsbD 0 } } ∧
      Quiet 6 s t

/-- R246, R322: `BRK` takes the exception of vector `0xFFFE` with return address `BRK` plus 2 and `B` set in the pushed byte. -/
def Obligations.BrkTakesTheIrqVectorWithBSet : Prop :=
  ∀ (sig : Byte) (s : State), Memory.wf s.ram = true →
    ∃ t, exec (.brk sig) s = .next t ∧ TakesException 7 true (pcAfter s 2) 0xFFFE s t

/-- An interrupt entry and the `RTI` that follows it (R320, R323): the interrupted program finds its `PC`, its stack pointer, its
flags and its other registers as they were. -/
def Obligations.RtiUndoesAnInterruptEntry : Prop :=
  ∀ (s t : State), Memory.wf s.ram = true → s.run = .running → boundary s = .done t →
    ∀ k : Addr, ∃ r, exec .rti { t with pc := k } = .next r ∧ r.core = s.core

/-! ## Flags, no-operation, wait, stop, undefined opcodes (spec/45_flags_system.md) -/

/-- R260 to R267: one flag, or none, two cycles, nothing else. -/
def Obligations.FlagInstructionsChangeOneFlag : Prop :=
  ∀ s : State,
    ∀ c ∈ ([(.clc, { s.p with c := false }), (.sec, { s.p with c := true }), (.cli, { s.p with i := false }),
            (.sei, { s.p with i := true }), (.cld, { s.p with d := false }), (.sed, { s.p with d := true }),
            (.clv, { s.p with v := false }), (.nop, s.p)] : List (Instr × Flags)),
      ∃ t, exec c.1 s = .next t ∧ t.core = { s.core with p := c.2, pc := pcAfter s 1 } ∧ Quiet 2 s t

/-- R268, R269: `WAI` and `STP` change `RUN`, leave `PC` at the next instruction and take three cycles. -/
def Obligations.WaitAndStopChangeRun : Prop :=
  ∀ s : State,
    (∃ t, exec .wai s = .next t ∧ t.core = { s.core with run := .waitingForInterrupt, pc := pcAfter s 1 } ∧ Quiet 3 s t) ∧
    (∃ t, exec .stp s = .next t ∧ t.core = { s.core with run := .stopped, pc := pcAfter s 1 } ∧ Quiet 3 s t)

/-- R270, R271, R272: without strict mode an undefined opcode moves `PC` past its bytes, spends its cycles and does nothing else. -/
def Obligations.UndefinedOpcodesAreNopsOfTheirLength : Prop :=
  ∀ (op b1 : Byte) (w : Addr) (s : State), s.params.strictUndefined = false →
    (∃ t, exec (.nop1 op) s = .next t ∧ t.core = { s.core with pc := pcAfter s 1 } ∧ Quiet (1 + undefExtra s op) s t) ∧
    (∃ t, exec (.nop2 op b1) s = .next t ∧ t.core = { s.core with pc := pcAfter s 2 } ∧ Quiet (2 + undefExtra s op) s t) ∧
    (∃ t, exec (.nop3 op w) s = .next t ∧ t.core = { s.core with pc := pcAfter s 3 } ∧ Quiet (3 + undefExtra s op) s t)

/-- R273, R330: in strict mode an undefined opcode fails with its byte right after the opcode fetch: `PC` one further, one cycle,
nothing else. -/
def Obligations.StrictModeFailsOnUndefinedOpcodes : Prop :=
  ∀ (op b1 : Byte) (w : Addr) (s : State), s.params.strictUndefined = true →
    ∀ i ∈ ([.nop1 op, .nop2 op b1, .nop3 op w] : List Instr),
      ∃ left, exec i s = .fault (.unknownOpcode op left) ∧ left.core = { s.core with pc := s.pc + 1 } ∧ Quiet 1 s left

/-! ## Bit instructions (spec/46_bitops_optional.md) -/

/-- R281, R282: one bit of a byte of page 0, five cycles, no flag. -/
def Obligations.BitInstructionsWriteOneBitOfPageZero : Prop :=
  ∀ (z : Byte) (s : State), Memory.wf s.ram = true →
    let m := Memory.read s.ram (zeroPage z)
    ∀ c ∈ ([(.rmb0 z, 0, false), (.rmb1 z, 1, false), (.rmb2 z, 2, false), (.rmb3 z, 3, false), (.rmb4 z, 4, false),
            (.rmb5 z, 5, false), (.rmb6 z, 6, false), (.rmb7 z, 7, false), (.smb0 z, 0, true), (.smb1 z, 1, true),
            (.smb2 z, 2, true), (.smb3 z, 3, true), (.smb4 z, 4, true), (.smb5 z, 5, true), (.smb6 z, 6, true),
            (.smb7 z, 7, true)] : List (Instr × Nat × Bool)),
      ∃ t r, exec c.1 s = .next t ∧ (∀ k < 8, r.getLsbD k = if k = c.2.1 then c.2.2 else m.getLsbD k) ∧
        t.core = { s.core with pc := pcAfter s 2 } ∧
        Frame 5 [.write .write (zeroPage z) r] (stored s (zeroPage z) r) s t

/-- R283, R284: the branch is taken when the bit of page 0 is clear (`BBR`) or set (`BBS`), relative to the address after the
third byte; 5 cycles, 6 taken, 7 taken to another page. -/
def Obligations.BitBranchesTestPageZero : Prop :=
  ∀ (z off : Byte) (s : State),
    let m := Memory.read s.ram (zeroPage z)
    ∀ c ∈ ([(.bbr0 z off, !m.getLsbD 0), (.bbr1 z off, !m.getLsbD 1), (.bbr2 z off, !m.getLsbD 2),
            (.bbr3 z off, !m.getLsbD 3), (.bbr4 z off, !m.getLsbD 4), (.bbr5 z off, !m.getLsbD 5),
            (.bbr6 z off, !m.getLsbD 6), (.bbr7 z off, !m.getLsbD 7), (.bbs0 z off, m.getLsbD 0),
            (.bbs1 z off, m.getLsbD 1), (.bbs2 z off, m.getLsbD 2), (.bbs3 z off, m.getLsbD 3),
            (.bbs4 z off, m.getLsbD 4), (.bbs5 z off, m.getLsbD 5), (.bbs6 z off, m.getLsbD 6),
            (.bbs7 z off, m.getLsbD 7)] : List (Instr × Bool)),
      let next := pcAfter s 3
      let target : Addr := next + BitVec.ofInt 16 off.toInt
      ∃ t, exec c.1 s = .next t ∧ t.core = { s.core with pc := if c.2 then target else next } ∧
        Quiet (if c.2 then (if hiByte target = hiByte next then 6 else 7) else 5) s t

/-! ## Boundary, interrupts, steps (spec/60_exceptions.md R300 to R326) -/

/-- R29, R301, R310, R311, R312, R320: at a boundary of a running core a latched NMI is taken first and clears its latch, then an
IRQ that is asserted while `I` is clear; otherwise, and only then, an instruction executes. A rising edge of the NMI input, and
nothing else about it, sets the latch. -/
def Obligations.InterruptsAreTakenAtTheBoundary : Prop :=
  ∀ s : State,
    (Executes s ↔ boundary s = .execute) ∧
    (s.run = .running → s.nmiPending = true → Memory.wf s.ram = true →
      ∃ t, boundary s = .done t ∧ TakesException 7 false s.pc 0xFFFA { s with nmiPending := false } t) ∧
    (s.run = .running → s.nmiPending = false → s.irqLine = true → s.p.i = false → Memory.wf s.ram = true →
      ∃ t, boundary s = .done t ∧ TakesException 7 false s.pc 0xFFFE s t) ∧
    (∀ b, (setNmiLine b s).nmiLine = b ∧ (setNmiLine b s).nmiPending = (s.nmiPending || (b && !s.nmiLine)))

/-- R301, R325, R326, R339: a stopped step and a waiting step are one idle cycle; a waiting core wakes on a latched NMI or an
asserted IRQ whatever `I` is; a stopped core runs again only by reset. -/
def Obligations.WaitingAndStoppedSteps : Prop :=
  ∀ s : State,
    (s.run = .stopped → ∃ t, step s = .next t ∧ t.core = s.core ∧ t.cyc = s.cyc + 1 ∧ t.ram = s.ram ∧
      t.nmiPending = s.nmiPending) ∧
    (s.run = .waitingForInterrupt → ∃ t, step s = .next t ∧
      t.core = { s.core with run := if s.nmiPending || s.irqLine then .running else .waitingForInterrupt } ∧
      t.cyc = s.cyc + 1 ∧ t.ram = s.ram ∧ t.nmiPending = s.nmiPending) ∧
    (∀ resetS, (hostReset resetS s).run = .running)

/-- R100, R300, R301: where the core executes and the bytes at `PC` decode to `i`, the step is the meaning of `i` followed by the
devices' tick; where the boundary takes an interrupt, or the core is stopped or waiting, it is that followed by the tick. The tick
brings timers 0 to 7, then audio channels 0 to 3, up to `CYC` (less `STALL_TOTAL` where the devices do not see the stalls) and then
computes the IRQ line; it leaves the core, RAM, `CYC`, `MAPCTL`, Suzy, the cartridge and the event record alone. A fault is passed
on. The bytes are those memory shows at `PC` and after it, but for a cartridge data port, and for the last byte of a `JSR` that
stands in the two stack bytes the `JSR` itself writes. -/
def Obligations.StepRunsTheDecodedInstruction : Prop :=
  (∀ (s : State) (i : Instr) (rest : List Byte), Executes s →
    (let b := instrBytes (beginStep s)
     decode s.params.bitops [b.1, b.2.1, b.2.2] = .ok (i, rest)) →
    (∀ t, exec i (beginStep s) = .next t → ∃ u, step s = .next u ∧ u = platformTick t ∧ u.core = t.core ∧ u.cyc = t.cyc ∧
      u.ram = t.ram ∧ u.mapctl = t.mapctl ∧ u.suzy = t.suzy ∧ u.cart = t.cart ∧ u.bus = t.bus) ∧
    (∀ f, exec i (beginStep s) = .fault f → step s = .fault f)) ∧
  (∀ s t : State, boundary (beginStep s) = .done t → step s = .next (platformTick t)) ∧
  (∀ t : State,
    let T := if t.params.stallTicksDevices then t.cyc else t.cyc - t.suzy.stallTotal
    let timers := ([0, 1, 2, 3, 4, 5, 6, 7] : List (Fin 8)).foldl (fun u n => tickTimer T u n) t
    let d := ([0, 1, 2, 3] : List (Fin 4)).foldl (fun u c => tickChannel T u c) timers
    timerTick T t = timers ∧ audioTick T timers = d ∧
    platformTick t =
      d.setIrqLine (decide (∃ n : Fin 8, d.pending.getLsbD n.val = true ∧ d.timers[n].ctla.getLsbD 7 = true))) ∧
  ∀ s : State, isPort s.mapctl (s.pc + 1) = false → isPort s.mapctl (s.pc + 2) = false →
    (peek s s.pc = 0x20 → s.pc + 2 ≠ stackAddr s.sp ∧ s.pc + 2 ≠ stackAddr (s.sp - 1)) →
    instrBytes (beginStep s) = (peek s s.pc, peek s (s.pc + 1), peek s (s.pc + 2))

/-- R67, R100: the bytes the executed instruction fetches over the bus, one by one, are the encoding of the instruction that was
decoded. -/
def Obligations.FetchesSeeTheDecodedBytes : Prop :=
  ∀ s t : State, Executes s → step s = .next t → fetchedBytes t.bus = encode (instrAt (beginStep s))

/-- R273, R330, R332: no step is refused; a step fails exactly where the core executes in strict mode and the byte at `PC` is an
undefined opcode, with that byte and the state of the rule. -/
def Obligations.OnlyStrictUndefinedOpcodesFail : Prop :=
  ∀ s : State,
    (∀ r, step s ≠ .refused r) ∧
    ((∃ f, step s = .fault f) ↔
      Executes s ∧ s.params.strictUndefined = true ∧ isUndefined s.params.bitops (peek s s.pc) = true) ∧
    (∀ f, step s = .fault f → ∃ left, f = .unknownOpcode (peek s s.pc) left ∧
      left.core = { s.core with pc := s.pc + 1 } ∧ Quiet 1 (beginStep s) left)

/-- R11, R117, R420: the cycles of every instruction are its bus accesses and idle cycles, as many as the table says; the sprite
engine's stall alone comes on top. -/
def Obligations.EveryInstructionTakesItsTabledCycles : Prop :=
  ∀ (i : Instr) (s t : State), exec i s = .next t →
    t.cyc + s.suzy.stallTotal = s.cyc + instrCycles i s + t.suzy.stallTotal ∧
    t.bus.length = s.bus.length + instrCycles i s

/-- R27, R41, R300, R347: every step moves `CYC` up, ends with the IRQ line as pending and enabled bits say, and changes neither a
parameter, nor the NMI input, nor the EEPROM. -/
def Obligations.EveryStepMovesTheClockAndSettlesTheIrqLine : Prop :=
  ∀ s t : State, step s = .next t →
    s.cyc < t.cyc ∧ (t.irqLine = true ↔ ∃ n : Fin 8, t.pending.getLsbD n.val = true ∧ t.timers[n].ctla.getLsbD 7 = true) ∧
    t.params = s.params ∧ t.nmiLine = s.nmiLine ∧ t.eeprom = s.eeprom

/-- R20, R21, R22, R26, R28, R39: which instructions can write each register, flag and memory: no other instruction changes it.
`BRK` clears `D` only under `INT_CLEARS_D`. -/
def Obligations.OnlyTheListedInstructionsWrite : Prop :=
  ∀ (i : Instr) (s t : State), exec i s = .next t →
    (t.a ≠ s.a → writesA i = true) ∧ (t.x ≠ s.x → writesX i = true) ∧ (t.y ≠ s.y → writesY i = true) ∧
    (t.sp ≠ s.sp → writesS i = true) ∧ (t.run ≠ s.run → i = .wai ∨ i = .stp) ∧
    (t.p.n ≠ s.p.n → writesN i = true) ∧ (t.p.z ≠ s.p.z → writesZ i = true) ∧ (t.p.c ≠ s.p.c → writesC i = true) ∧
    (t.p.v ≠ s.p.v → writesV i = true) ∧ (t.p.i ≠ s.p.i → writesI i = true) ∧
    (t.p.d ≠ s.p.d → writesD i = true ∨ (s.params.intClearsD = true ∧ ∃ sig, i = .brk sig)) ∧
    (∀ b, Memory.read t.ram b ≠ Memory.read s.ram b → writesMemory i = true)

/-! ## Invariant -/

/-- Every step keeps the invariant (the memories' canonical form, the sprite engine at rest, no timer ahead of its clock). -/
def Obligations.EveryStepKeepsTheInvariant : Prop :=
  ∀ s t : State, Inv s → step s = .next t → Inv t

/-- So does every input of the host between steps, when the devices see the stalls (R300, R401) and the RAM a power-on starts with
is canonical. -/
def Obligations.HostInputsKeepTheInvariant : Prop :=
  ∀ (s : State) (h : HostInput), Inv s → s.params.stallTicksDevices = true →
    (∀ inp, h = .powerOn inp → Memory.wf inp.ram = true) → Inv (h.apply s)

/-- The state after reset has the invariant; it is what `power_on()` leaves for the model's own choice of the free inputs (log 2
to 5, 18); `I`, `D`, `RUN`, `MAPCTL`, the interrupt state and the timers are as R45 says. -/
def Obligations.ResetStateIsPowerOnAndHasTheInvariant : Prop :=
  Inv State.reset ∧ powerOn .chosen State.reset = State.reset ∧ State.reset.p.i = true ∧ State.reset.p.d = false ∧
    State.reset.run = .running ∧ State.reset.mapctl = 0x00 ∧ State.reset.pending = 0x00 ∧ State.reset.irqLine = false ∧
    State.reset.nmiLine = false ∧ State.reset.nmiPending = false ∧ State.reset.cyc = 7 ∧
    (∀ n : Fin 8, State.reset.timers[n] = { bkup := 0, ctla := 0, cnt := 0, ctlb := 0, last := 7 })

/-- R401, R402, R403: what `reset()` changes and what it leaves. Where R45's table says otherwise of the channels' `LAST` and of the
input latches, the procedure is followed (log 30); that the EEPROM's other fields stay is the model's choice (log 31). -/
def Obligations.ResetDoesWhatItsRuleLists : Prop :=
  ∀ (resetS : Byte) (s : State), 2 ≤ s.params.resetCycles →
    let t := hostReset resetS s
    t.core =
      { a := s.a, x := s.x, y := s.y, sp := resetS, pc := pair (s.rom 0x1FD) (s.rom 0x1FC),
        p := { s.p with i := true, d := false }, run := .running } ∧
    t.cyc = s.cyc + s.params.resetCycles ∧
    t.bus =
      [.read .vectorRead 0xFFFD (s.rom 0x1FD), .read .vectorRead 0xFFFC (s.rom 0x1FC)]
        ++ List.replicate (s.params.resetCycles - 2) .idle ∧
    t.mapctl = 0x00 ∧ t.nmiPending = false ∧ t.nmiLine = s.nmiLine ∧ t.irqLine = false ∧ t.pending = 0x00 ∧
    t.ram = s.ram ∧ t.params = s.params ∧
    (∀ n : Fin 8, t.timers[n] = { bkup := 0, ctla := 0, cnt := 0, ctlb := 0, last := t.cyc }) ∧
    (∀ c : Fin 4, t.audio.channels[c] = Channel.afterReset t.cyc) ∧ t.audio.stereo = 0 ∧ t.audio.pan = 0 ∧
    t.video =
      { palG := Vector.replicate 16 0, palBR := Vector.replicate 16 0, dispctl := 0, dispadr := 0, scanline := 0,
        frames := s.video.frames, fb := s.video.fb } ∧
    t.suzy = Suzy.afterReset s.suzy.joystick s.suzy.switches s.suzy.stallTotal ∧
    t.cart = { curBank := 0, shift := 0, addrCnt := 0 } ∧
    t.eeprom = { s.eeprom with phase := .idle, writeEnabled := false }

/-! ## Memory map (spec/20_memory.md) -/

/-- R53, R54, R57, R70: with the Mikey window visible a write to it leaves the RAM under it; hidden, the same address is RAM and
the registers keep their values; shown again, the register reads as before. The same for the ROM window, which discards writes
while it is visible. Of the registers themselves (R340, R342, R350, R360, R369, R370): each plain one stores the byte written,
changes nothing else, and reads it back; bit 6 of a channel's `CTL` reloads its count; an address without a register reads 0xFF and
discards the write (R55), and so do the writes to the latches and the cartridge ports. -/
def Obligations.OverlaysHideAndKeepWhatIsUnderThem : Prop :=
  (∀ (s : State) (off v hide shown : Byte), Memory.wf s.ram = true → hide.getLsbD 1 = true → shown.getLsbD 1 = false →
    let a : Addr := 0xFD00 + off.setWidth 16
    let w := fun (b : Addr) (x : Byte) (u : State) => memWrite .write b x u
    let s1 := w a v (w 0xFFF9 shown s)
    let s2 := w a v (w 0xFFF9 hide s1)
    let s3 := w 0xFFF9 shown s2
    (∀ b, Memory.read s1.ram b = Memory.read s.ram b) ∧ peek s2 a = v ∧ peek s3 a = peek s1 a ∧ s3.timers = s1.timers ∧
    (∀ b, b ≠ a → Memory.read s3.ram b = Memory.read s.ram b) ∧
    (∀ (b : Addr) (off' : Nat), region s.mapctl b = .rom off' → s.params.romWriteThrough = false →
      peek (w b v s) b = peek s b ∧ (w b v s).ram = s.ram)) ∧
  (∀ (k : WriteKind) (v : Byte) (s : State), s.mapctl.getLsbD 1 = false →
    let u := fun a : Addr => s.cycle (.write k a v)
    let stores := fun (a : Addr) (t : State) (back : Byte) => memWrite k a v s = t ∧ peek t a = back
    (∀ n : Fin 8,
      let t := s.timers[n]
      ∀ r ∈ ([(0, { t with bkup := v }), (2, { t with cnt := v }), (3, { t with ctlb := v })] : List (Nat × Timer)),
        let a : Addr := BitVec.ofNat 16 (0xFD00 + 4 * n.val + r.1)
        stores a ((u a).setTimer n r.2) v) ∧
    (∀ c : Fin 4,
      let ch := s.audio.channels[c]
      ∀ r ∈ ([(0, { ch with vol := v }, v), (1, { ch with feedback := v }, v), (2, { ch with out := v }, v),
              (3, { ch with lfsr := BitVec.ofNat 12 (ch.lfsr.toNat / 256 * 256 + v.toNat) }, v), (4, { ch with bkup := v }, v),
              (5, { ch with ctl := v, cnt := if v.getLsbD 6 then ch.bkup else ch.cnt }, v), (6, { ch with cnt := v }, v),
              (7, { ch with lfsr := BitVec.ofNat 12 (v.toNat / 16 * 256 + ch.lfsr.toNat % 256), done := v.getLsbD 3 },
                v &&& 0xF8)] : List (Nat × Channel × Byte)),
        let a : Addr := BitVec.ofNat 16 (0xFD20 + 8 * c.val + r.1)
        stores a ((u a).setChannel c r.2.1) r.2.2) ∧
    (∀ c : Fin 4,
      let a : Addr := BitVec.ofNat 16 (0xFD40 + c.val)
      stores a ((u a).setChannel c { s.audio.channels[c] with atten := v }) v) ∧
    stores 0xFD44 { u 0xFD44 with audio := { s.audio with pan := v } } v ∧
    stores 0xFD50 { u 0xFD50 with audio := { s.audio with stereo := v } } v ∧
    stores 0xFD92 ((u 0xFD92).setVideo { s.video with dispctl := v }) v ∧
    stores 0xFD94
      ((u 0xFD94).setVideo { s.video with dispadr := BitVec.ofNat 16 (s.video.dispadr.toNat / 256 * 256 + v.toNat) }) v ∧
    stores 0xFD95
      ((u 0xFD95).setVideo { s.video with dispadr := BitVec.ofNat 16 (v.toNat * 256 + s.video.dispadr.toNat % 256) }) v ∧
    (∀ off : Byte,
      ¬ (off.toNat < 0x45 ∨ off.toNat ∈ [0x50, 0x80, 0x81, 0x92, 0x94, 0x95] ∨ (0xA0 ≤ off.toNat ∧ off.toNat < 0xC0)) →
      let a : Addr := 0xFD00 + off.setWidth 16
      peek s a = 0xFF ∧ stores a (u a) 0xFF)) ∧
  ∀ (k : WriteKind) (v : Byte) (s : State), s.mapctl.getLsbD 0 = false →
    let u := fun a : Addr => s.cycle (.write k a v)
    let stores := fun (a : Addr) (t : State) (back : Byte) => memWrite k a v s = t ∧ peek t a = back
    let z := s.suzy
    let q := z.regs
    let lo := fun x : BitVec 16 => BitVec.ofNat 16 (x.toNat / 256 * 256 + v.toNat)
    let hi := fun x : BitVec 16 => BitVec.ofNat 16 (v.toNat * 256 + x.toNat % 256)
    (∀ r ∈ ([(0xFC10, { z with scbadr := lo z.scbadr }), (0xFC11, { z with scbadr := hi z.scbadr }),
             (0xFC14, { z with regs := { q with hpos := lo q.hpos } }), (0xFC15, { z with regs := { q with hpos := hi q.hpos } }),
             (0xFC16, { z with regs := { q with vpos := lo q.vpos } }), (0xFC17, { z with regs := { q with vpos := hi q.vpos } }),
             (0xFC18, { z with regs := { q with hsize := lo q.hsize } }), (0xFC19, { z with regs := { q with hsize := hi q.hsize } }),
             (0xFC1A, { z with regs := { q with vsize := lo q.vsize } }), (0xFC1B, { z with regs := { q with vsize := hi q.vsize } }),
             (0xFC1C, { z with regs := { q with stretch := lo q.stretch } }),
             (0xFC1D, { z with regs := { q with stretch := hi q.stretch } }),
             (0xFC1E, { z with regs := { q with tilt := lo q.tilt } }), (0xFC1F, { z with regs := { q with tilt := hi q.tilt } }),
             (0xFC52, { z with mathD := v }), (0xFC53, { z with mathC := v }), (0xFC54, { z with mathB := v }),
             (0xFC56, { z with mathP := v }), (0xFC57, { z with mathN := v }), (0xFC60, { z with mathH := v }),
             (0xFC61, { z with mathG := v }), (0xFC62, { z with mathF := v }), (0xFC6C, { z with mathM := v }),
             (0xFC6D, { z with mathL := v }), (0xFC6E, { z with mathK := v }), (0xFC6F, { z with mathJ := v })] :
               List (Addr × Suzy)),
      stores r.1 ((u r.1).setSuzy r.2) v) ∧
    (let back : Byte := (if z.mathOverflow then 0x40 else 0x00) ||| (if z.busy then 0x01 else 0x00)
     stores 0xFC92 ((u 0xFC92).setSuzy { z with signed := v.getLsbD 7, accumulate := v.getLsbD 6 }) back) ∧
    peek s 0xFC91 = 0xFF ∧ stores 0xFCB0 (u 0xFCB0) z.joystick ∧ stores 0xFCB1 (u 0xFCB1) z.switches ∧
    memWrite k 0xFCB2 v s = u 0xFCB2 ∧ memWrite k 0xFCB3 v s = u 0xFCB3 ∧
    (∀ off : Byte,
      off.toNat ∉ [0x10, 0x11, 0x14, 0x15, 0x16, 0x17, 0x18, 0x19, 0x1A, 0x1B, 0x1C, 0x1D, 0x1E, 0x1F, 0x52, 0x53, 0x54, 0x55,
        0x56, 0x57, 0x60, 0x61, 0x62, 0x63, 0x6C, 0x6D, 0x6E, 0x6F, 0x91, 0x92, 0xB0, 0xB1, 0xB2, 0xB3] →
      let a : Addr := 0xFC00 + off.setWidth 16
      peek s a = 0xFF ∧ stores a (u a) 0xFF)

/-- R51, R52, R53, R56: what answers at each address, under every `MAPCTL`. -/
def Obligations.AddressMap : Prop :=
  ∀ (m : Byte) (a : Addr),
    let n := a.toNat
    (n < 0xFC00 ∨ n = 0xFFF8 → region m a = .ram) ∧
    (n = 0xFFF9 → region m a = .mapctl) ∧
    (0xFC00 ≤ n → n < 0xFD00 → region m a = if m.getLsbD 0 then .ram else .suzy (BitVec.ofNat 8 (n - 0xFC00))) ∧
    (0xFD00 ≤ n → n < 0xFE00 → region m a = if m.getLsbD 1 then .ram else .mikey (BitVec.ofNat 8 (n - 0xFD00))) ∧
    (0xFE00 ≤ n → n ≤ 0xFFF7 → region m a = if m.getLsbD 2 then .ram else .rom (n - 0xFE00)) ∧
    (0xFFFA ≤ n → region m a = if m.getLsbD 3 then .ram else .rom (n - 0xFE00))

/-- R58, R360, R380: a read of a visible cartridge data port gives the byte of the image at the counter modulo the bank's size
(0xFF outside the image) and moves the counter, modulo 2^20; every other read changes nothing but `CYC` and the record. For a
bank of size 0, where the rule's `mod` has no value, the counter stands unreduced: the model's choice (log 20). Against R360 and R380, spec/93 U13 and U16 give
the ports no effect: log 33. -/
def Obligations.OnlyCartridgePortReadsHaveAnEffect : Prop :=
  ∀ (k : ReadKind) (s : State),
    (∀ b : Fin 2, s.mapctl.getLsbD 0 = false →
      let a : Addr := 0xFCB2 + BitVec.ofNat 16 b.val
      let v := s.params.cart.image.getD
        (s.params.cart.bankOffset[b] + s.cart.addrCnt.toNat % s.params.cart.bankSize[b]) 0xFF
      memRead k a s = (v, (s.cycle (.read k a v)).setCart { s.cart with addrCnt := s.cart.addrCnt + 1 })) ∧
    (∀ a : Addr, (s.mapctl.getLsbD 0 = true ∨ (a ≠ 0xFCB2 ∧ a ≠ 0xFCB3)) →
      memRead k a s = (peek s a, s.cycle (.read k a (peek s a))))

/-! ## Mikey (spec/60_exceptions.md R340 to R373) -/

/-- R343: a tick brings a prescaled timer forward by every whole period elapsed, each followed by one `Decrement`, however often
that underflows, and loses no fraction; while it does not underflow the count goes down by the periods and nothing else is touched.
A stopped or linked timer keeps up without counting. A second tick to the same cycle does nothing. `Decrement`'s bound of 4 is no
bound on the chain (R345). The number of periods is R343's loop in closed form (log 28). -/
def Obligations.PrescaledTimerCountsWholePeriods : Prop :=
  (∀ (s : State) (n : Fin 8) (now : Nat),
    let t := s.timers[n]
    let period := 4 <<< (t.ctla.toNat % 8)
    let k := (now - t.last) / period
    let counts := t.ctla.getLsbD 3 = true ∧ t.ctla.toNat % 8 ≠ 7
    let one := fun u : State => decrementTimer 4 n (u.setTimer n { u.timers[n] with last := u.timers[n].last + period })
    (counts → tickTimer now s n = one^[k] s ∧ (tickTimer now s n).timers[n].last = t.last + k * period) ∧
    (counts → k ≤ t.cnt.toNat →
      tickTimer now s n = s.setTimer n { t with cnt := t.cnt - BitVec.ofNat 8 k, last := t.last + k * period }) ∧
    (¬ counts → tickTimer now s n = s.setTimer n { t with last := now }) ∧
    (∀ fuel, decrementTimer (4 + fuel) n s = decrementTimer 4 n s)) ∧
  ∀ (s : State) (now : Nat), timerTick now (timerTick now s) = timerTick now s

/-- R344, R345, R352, R353, R371: a count that is not zero goes down by one. An underflow, of any of the eight timers, sets the
done flag, reloads, requests the interrupt and asserts the line if enabled, runs the video hook of timer 0 or of timer 2 (line 0,
one frame more modulo 2^32), decrements the linked successor, and, for timer 7, audio channel 0 if that is enabled and linked; the
chains are 0, 2, 4 and 1, 3, 5, 7. Nothing else changes: the IRQ line of a timer that may not interrupt stays as it was. -/
def Obligations.TimerUnderflowReloadsRequestsAndCascades : Prop :=
  (timerSucc 0 = some 2 ∧ timerSucc 2 = some 4 ∧ timerSucc 1 = some 3 ∧ timerSucc 3 = some 5 ∧ timerSucc 5 = some 7 ∧
    timerSucc 4 = none ∧ timerSucc 6 = none ∧ timerSucc 7 = none) ∧
  ∀ (s : State) (n : Fin 8) (fuel : Nat),
    let t := s.timers[n]
    let clocked := fun ctl : Byte => ctl.getLsbD 3 = true ∧ ctl.toNat % 8 = 7
    (t.cnt ≠ 0 → decrementTimer (fuel + 1) n s = s.setTimer n { t with cnt := t.cnt - 1 }) ∧
    (t.cnt = 0 →
      let u := s.setTimer n { t with ctlb := t.ctlb ||| 0x08, cnt := t.bkup }
      let requested :=
        if t.ctla.getLsbD 7 then { u with pending := s.pending ||| ((1 : Byte) <<< n.val), irqLine := true } else u
      let hooked :=
        if n = 0 then horizontalUnderflow requested
        else if n = 2 then
          { requested with
            video := { s.video with scanline := 0, frames := BitVec.ofNat 32 ((s.video.frames.toNat + 1) % 2 ^ 32) } }
        else requested
      let cascaded :=
        match timerSucc n with
        | none => hooked
        | some m => if clocked s.timers[m].ctla then decrementTimer fuel m hooked else hooked
      decrementTimer (fuel + 1) n s =
        if n = 7 ∧ clocked s.audio.channels[0].ctl then decrementChannel 4 0 cascaded else cascaded)

/-- R341, R346, R347: `INTSET` sets and `INTRST` clears the bits written as 1; both read the pending byte; a `TnCTLA` write stores the
byte and reloads the count when bit 6 is set; after each the line is pending and enabled. Nothing else outside changes. -/
def Obligations.InterruptRegistersSetClearAndRecompute : Prop :=
  ∀ (k : WriteKind) (v : Byte) (s : State), s.mapctl.getLsbD 1 = false →
    let u := fun a : Addr => s.cycle (.write k a v)
    let line := fun t : State => decide (∃ n : Fin 8, t.pending.getLsbD n.val = true ∧ t.timers[n].ctla.getLsbD 7 = true)
    (memWrite k 0xFD81 v s =
      let t := { u 0xFD81 with pending := s.pending ||| v }
      t.setIrqLine (line t)) ∧
    (memWrite k 0xFD80 v s =
      let t := { u 0xFD80 with pending := s.pending &&& ~~~v }
      t.setIrqLine (line t)) ∧
    peek s 0xFD80 = s.pending ∧ peek s 0xFD81 = s.pending ∧
    (∀ n : Fin 8,
      let a : Addr := 0xFD01 + BitVec.ofNat 16 (4 * n.val)
      let old := s.timers[n]
      memWrite k a v s =
        let t := (u a).setTimer n { old with ctla := v, cnt := if v.getLsbD 6 then old.bkup else old.cnt }
        t.setIrqLine (line t))

/-- R351: the palette bytes read back as written, and the colour is the three nibbles expanded. -/
def Obligations.PaletteBytesGiveTheColour : Prop :=
  ∀ (k : WriteKind) (i : Fin 16) (g br : Byte) (s : State), s.mapctl.getLsbD 1 = false →
    let ag : Addr := 0xFDA0 + BitVec.ofNat 16 i.val
    let ab : Addr := 0xFDB0 + BitVec.ofNat 16 i.val
    let t := memWrite k ab br (memWrite k ag g s)
    let e := fun n : Nat => 16 * n + n
    peek t ag = g ∧ peek t ab = br ∧
    (t.video.argb i).toNat =
      0xFF * 2 ^ 24 + e (br.toNat % 16) * 2 ^ 16 + e (g.toNat % 16) * 2 ^ 8 + e (br.toNat / 16) ∧
    (∀ j, j ≠ i → t.video.argb j = s.video.argb j)

/-- R352: with the display DMA on, a horizontal underflow draws the line from the bytes of RAM at the display address, high nibble
left, and no other line; with it off, or past line 101, the frame buffer keeps its contents. The line number goes up. -/
def Obligations.HorizontalUnderflowDrawsOneLine : Prop :=
  ∀ s : State, Cells.wfFrom black displayPixels 0 s.video.fb = true →
    let t := horizontalUnderflow s
    t.video.scanline = s.video.scanline + 1 ∧ t.ram = s.ram ∧ t.cyc = s.cyc ∧
    (s.video.dispctl.getLsbD 0 = true → s.video.scanline < 102 →
      (∀ i < 80,
        let byte := Memory.read s.ram (s.video.dispadr + BitVec.ofNat 16 (s.video.scanline * 80 + i))
        t.video.pixel s.video.scanline (2 * i) = s.video.argb (Fin.ofNat 16 (byte.toNat / 16)) ∧
        t.video.pixel s.video.scanline (2 * i + 1) = s.video.argb (Fin.ofNat 16 (byte.toNat % 16))) ∧
      (∀ line column, line ≠ s.video.scanline → column < 160 →
        t.video.pixel line column = s.video.pixel line column)) ∧
    ((s.video.dispctl.getLsbD 0 = false ∨ 102 ≤ s.video.scanline) → t.video.fb = s.video.fb)

/-- R372, R371, R343. One clock of a channel's shift register moves it right by one, bit 11 becomes the XOR of the selected taps,
and the output follows the new low bit, clamped to a signed byte. A channel's decrement counts down, or, at zero, sets the done
flag, reloads, clocks the register and decrements the next channel if that is enabled and linked (the bound of 4 is no bound on that
chain). A tick brings a prescaled channel forward by every whole period elapsed, each followed by one decrement, however often that
underflows, and loses no fraction; another channel keeps up without counting. `AudioTick`, while no channel underflows, does that to
the four of them and nothing else; a second one to the same cycle does nothing (the whole periods at once are the closed form of
log 28). -/
def Obligations.LfsrClockShiftsAndDrivesTheOutput : Prop :=
  (∀ c : Channel,
    let t := c.clockLfsr
    let tap := fun j i : Nat => c.feedback.getLsbD j && c.lfsr.getLsbD i
    let fb := tap 0 0 ^^ tap 1 1 ^^ tap 2 2 ^^ tap 3 3 ^^ tap 4 4 ^^ tap 5 5 ^^ tap 6 7 ^^ tap 7 10
    let d : Int := if c.lfsr.getLsbD 1 then c.vol.toInt else -c.vol.toInt
    t.lfsr.toNat = c.lfsr.toNat / 2 + 2048 * fb.toNat ∧
    t.out.toInt = max (-128) (min 127 (if c.ctl.getLsbD 5 then c.out.toInt + d else d)) ∧
    t = { c with lfsr := t.lfsr, out := t.out }) ∧
  (∀ (s : State) (c : Fin 4) (fuel : Nat),
    let ch := s.audio.channels[c]
    (ch.cnt ≠ 0 → decrementChannel (fuel + 1) c s = s.setChannel c { ch with cnt := ch.cnt - 1 }) ∧
    (ch.cnt = 0 →
      let k := ch.clockLfsr
      let u := s.setChannel c { ch with lfsr := k.lfsr, out := k.out, done := true, cnt := ch.bkup }
      (c = 3 → decrementChannel (fuel + 1) c s = u) ∧
      (∀ e : Fin 4, e.val = c.val + 1 →
        let linked := s.audio.channels[e].ctl.getLsbD 3 = true ∧ s.audio.channels[e].ctl.toNat % 8 = 7
        decrementChannel (fuel + 1) c s = if linked then decrementChannel fuel e u else u)) ∧
    decrementChannel (4 + fuel) c s = decrementChannel 4 c s) ∧
  (∀ (s : State) (c : Fin 4) (now : Nat),
    let ch := s.audio.channels[c]
    let period := 4 <<< (ch.ctl.toNat % 8)
    let k := (now - ch.last) / period
    let counts := ch.ctl.getLsbD 3 = true ∧ ch.ctl.toNat % 8 ≠ 7
    let one := fun u : State =>
      decrementChannel 4 c (u.setChannel c { u.audio.channels[c] with last := u.audio.channels[c].last + period })
    (counts → tickChannel now s c = one^[k] s ∧ (tickChannel now s c).audio.channels[c].last = ch.last + k * period) ∧
    (¬ counts → tickChannel now s c = s.setChannel c { ch with last := now })) ∧
  (∀ (s : State) (now : Nat), audioTick now (audioTick now s) = audioTick now s) ∧
  ∀ (s : State) (now : Nat),
    let counts := fun ch : Channel => ch.ctl.getLsbD 3 = true ∧ ch.ctl.toNat % 8 ≠ 7
    let period := fun ch : Channel => 4 <<< (ch.ctl.toNat % 8)
    let k := fun ch : Channel => (now - ch.last) / period ch
    (∀ c : Fin 4, counts s.audio.channels[c] → k s.audio.channels[c] ≤ s.audio.channels[c].cnt.toNat) →
    (∀ c : Fin 4,
      let ch := s.audio.channels[c]
      (audioTick now s).audio.channels[c] =
        if counts ch then { ch with cnt := ch.cnt - BitVec.ofNat 8 (k ch), last := ch.last + k ch * period ch }
        else { ch with last := now }) ∧
    { audioTick now s with audio := s.audio } = s ∧
    (audioTick now s).audio.stereo = s.audio.stereo ∧ (audioTick now s).audio.pan = s.audio.pan

/-! ## Suzy, cartridge, EEPROM (spec/60_exceptions.md R360 to R381) -/

/-- R365, R367, R368: a write to `MATHA` multiplies. The product is of the unsigned factors, or, in signed mode, of the factors as
the sign test reads them: two's complement, but that the test on `v - 1` takes 0x8000 as positive. It is added to the accumulator
when asked, and the overflow flag is the carry of that addition alone. The sign and magnitude of the two corner operands are R367's
under both tests. -/
def Obligations.MathAWriteMultiplies : Prop :=
  (signMag .bit15 0x8000 = (true, 0x8000) ∧ signMag .bit15 0x0000 = (false, 0x0000) ∧
    signMag .minusOneBit15 0x8000 = (false, 0x8000) ∧ signMag .minusOneBit15 0x0000 = (true, 0x0000)) ∧
  ∀ (k : WriteKind) (v : Byte) (s : State), s.mapctl.getLsbD 0 = false →
    let t := memWrite k 0xFC55 v s
    let z := s.suzy
    let ab := pair v z.mathB
    let value := fun w : BitVec 16 => if s.params.mathSignTest = .minusOneBit15 ∧ w = 0x8000 then 0x8000 else w.toInt
    let prod : BitVec 32 :=
      if z.signed then BitVec.ofInt 32 (value ab * value z.cd) else BitVec.ofNat 32 (ab.toNat * z.cd.toNat)
    let sum := z.jklm.toNat + prod.toNat
    t.suzy.efgh = prod ∧ t.suzy.ab = ab ∧ t.suzy.cd = z.cd ∧
    t.suzy.jklm = (if z.accumulate then BitVec.ofNat 32 sum else z.jklm) ∧
    t.suzy.mathOverflow = (z.accumulate && decide (2 ^ 32 ≤ sum)) ∧ t.ram = s.ram ∧ t.cyc = s.cyc + 1

/-- R366, R367, R368: a write to `MATHE` divides: quotient and remainder of the 32-bit dividend by the 16-bit divisor in unsigned
mode, both zero for a zero divisor in either mode, where the overflow flag is a value the spec does not state (log 10). In signed
mode the quotient is open and the remainder that of an unsigned division: of the operands, or of their magnitudes (which of them is
the model's reading of R367, log 11), so that of the operands when neither is negative. -/
def Obligations.MathEWriteDivides : Prop :=
  ∀ (k : WriteKind) (v : Byte) (s : State), s.mapctl.getLsbD 0 = false →
    let t := memWrite k 0xFC63 v s
    let z := s.suzy
    let n := quad v z.mathF z.mathG z.mathH
    (z.np = 0 → t.suzy.abcd = 0 ∧ t.suzy.jklm = 0 ∧ t.freeCtr = s.freeCtr + 1) ∧
    (z.np ≠ 0 → z.signed = false →
      t.suzy.abcd.toNat = n.toNat / z.np.toNat ∧ t.suzy.jklm.toNat = n.toNat % z.np.toNat) ∧
    (z.np ≠ 0 → z.signed = true →
      (∃ a ∈ [n, n.abs], ∃ b ∈ [z.np, z.np.abs], t.suzy.jklm.toNat = a.toNat % b.toNat) ∧
      (n.toNat < 2 ^ 31 → z.np.toNat < 2 ^ 15 → t.suzy.jklm.toNat = n.toNat % z.np.toNat)) ∧
    (z.np ≠ 0 → t.suzy.mathOverflow = false ∧ t.freeCtr = s.freeCtr ∧ t.suzy.jklm.toNat < z.np.toNat) ∧
    t.suzy.efgh = n ∧ t.suzy.np = z.np ∧ t.ram = s.ram ∧ t.cyc = s.cyc + 1

/-- R361, R363, R364: a write of `SPRGO` with bit 0 set processes exactly one SCB when the high byte of its next pointer is zero,
whatever the low byte, and goes on to the next SCB when it is not, whose own pointer decides in the same way; the costs are
charged to `CYC` and to the stall total, and the engine is at rest afterwards. With bit 0 clear nothing starts. What one SCB
writes is the open rendering's (log 12). Of the collision rule R364, which the spec does not interpret, the clauses on the
collision buffer are the model's reading, DEDUCED in log 12 (R361 lets the rendering update it): its pixels change the collision
buffer when the collision number (low 4 bits of the SCB's byte 2) is not zero: the occupant from before is OR'd into both sides of
the pair, then the slot takes the new occupant; nothing else changes the buffer. In general the SCBs along the chain are processed
in turn, at least one and at most 256, up to the first whose pointer is in page 0; a chain with none, one that points at itself
say, stops at the 256th. That the SCB's offsets wrap at the top of memory is the model's choice (log 32). -/
def Obligations.SpriteChainEndsAtAPageZeroPointer : Prop :=
  (∀ (k : WriteKind) (v : Byte) (s : State), s.mapctl.getLsbD 0 = false → hiByte s.suzy.scbadr ≠ 0 →
    let t := memWrite k 0xFC91 v s
    let next := fun (ram : List Host.Cell) (a : Addr) => pair (Memory.read ram (a + 4)) (Memory.read ram (a + 3))
    let number : BitVec 4 := BitVec.ofNat 4 ((Memory.read s.ram (s.suzy.scbadr + 2)).toNat % 16)
    let r1 := Config.spriteRender s.ram s.suzy.coll s.suzy.regs s.suzy.scbadr
    let written := r1.actions.foldl (Canvas.act number) { ram := s.ram, coll := s.suzy.coll }
    let started := (s.cycle (.write k 0xFC91 v)).setSuzy { s.suzy with busy := true, stall := 0 }
    let one := renderSprite s.suzy.scbadr started
    let n1 := next s.ram s.suzy.scbadr
    let two := renderSprite n1 one
    let n2 := next one.ram n1
    (v.getLsbD 0 = false → t = s.cycle (.write k 0xFC91 v)) ∧
    (v.getLsbD 0 = true → t.suzy.busy = false ∧ t.suzy.stallTotal = s.suzy.stallTotal + t.suzy.stall ∧
      t.cyc = s.cyc + 1 + t.suzy.stall) ∧
    (v.getLsbD 0 = true → hiByte n1 = 0 →
      t.ram = written.ram ∧ t.suzy.coll = written.coll ∧ t.suzy.stall = r1.cost ∧ t.suzy.regs = r1.regs ∧
      (number = 0 ∨ (∀ x ∈ r1.actions, x.isPixel = false) → t.suzy.coll = s.suzy.coll)) ∧
    (v.getLsbD 0 = true → hiByte n1 ≠ 0 →
      t = chargeStall (if hiByte n2 = 0 then two else walkChain 254 n2 two)) ∧
    (v.getLsbD 0 = true →
      let chain := fun j : Nat => (fun q : Addr × State => (next q.2.ram q.1, renderSprite q.1 q.2))^[j] (s.suzy.scbadr, started)
      ∃ j, 1 ≤ j ∧ j ≤ 256 ∧ t = chargeStall (chain j).2 ∧ (∀ i, 0 < i → i < j → hiByte (chain i).1 ≠ 0) ∧
        (hiByte (chain j).1 = 0 ∨ j = 256))) ∧
  ∀ (c : Canvas) (number : BitVec 4) (a : Addr) (v : Byte) (h : Collision), Memory.wf c.ram = true →
    let drawn := fun b : Addr => if b = a then v else Memory.read c.ram b
    let w := c.act number (.write a v)
    let p := c.act number (.pixel a v h)
    let old := c.coll[h.slot]
    (w.coll = c.coll ∧ ∀ b, Memory.read w.ram b = drawn b) ∧
    (number = 0 → p.coll = c.coll ∧ ∀ b, Memory.read p.ram b = drawn b) ∧
    (number ≠ 0 →
      p.coll[h.slot] = h.occupant ∧
      (∀ i : Fin 16, i ≠ h.slot →
        p.coll[i] = if h.side1 = .entry i ∨ h.side2 = .entry i then c.coll[i] ||| old else c.coll[i]) ∧
      (∀ b, Memory.read p.ram b = if h.side1 = .byte b ∨ h.side2 = .byte b then drawn b ||| old else drawn b))

/-- R381: while write-enabled is false no clock edge changes a cell; while it is true the sixteenth data bit of a `WRITE` stores the
word, most significant bit first, at the address and nowhere else. Of the first clause R381 says `WRITE` and `ERASE`; that `WRAL` and
`ERAL` obey the enable too is DEDUCED, and that a clock counts whatever chip-select is, is the model's choice (log 22). A
chip's word count is DEDUCED but for the 93C46 (log 34). -/
def Obligations.EepromWritesOnlyWhenEnabled : Prop :=
  ∀ (e : Eeprom) (dummy di : Bool),
    (e.writeEnabled = false → (e.clock dummy di).cells = e.cells) ∧
    (e.writeEnabled = true → e.phase = .receivingData → e.bitCount = 15 → e.command = 0b01 →
      e.address.toNat < e.chip.words → Cells.wfFrom erased e.chip.words 0 e.cells = true →
      (e.clock dummy di).phase = .idle ∧
      (e.clock dummy di).word e.address.toNat = e.data <<< 1 ||| (BitVec.ofBool di).setWidth 16 ∧
      (∀ a, a ≠ e.address.toNat → (e.clock dummy di).word a = e.word a))

end
end

