-- ==== Sys2Proof/Laws/Memory.lean ====
section
/-! SUPPORT. The laws of sparse memories: a read after a write, and the canonical form kept by every operation. -/

namespace Sys2Proof.Machine

variable {α : Type} [DecidableEq α] {d : α}

/-- A canonical list reads as unlisted below its lowest key. -/
theorem Cells.read_of_lt {hi lo k : Nat} {m : List (Nat × α)} (h : Cells.wfFrom d hi lo m = true) (hk : k < lo) :
    Cells.read d m k = d := by
  induction m generalizing lo with
  | nil => rfl
  | cons c rest ih =>
    obtain ⟨j, w⟩ := c
    simp only [Cells.wfFrom, Bool.and_eq_true, decide_eq_true_eq] at h
    have hj : j ≠ k := by omega
    simp only [Cells.read, if_neg hj]
    exact ih h.2 (by omega)

/-- A lower bound may be lowered. -/
theorem Cells.wfFrom_mono {hi lo lo' : Nat} {m : List (Nat × α)} (h : Cells.wfFrom d hi lo m = true) (hl : lo' ≤ lo) :
    Cells.wfFrom d hi lo' m = true := by
  cases m with
  | nil => rfl
  | cons c rest =>
    simp only [Cells.wfFrom, Bool.and_eq_true, decide_eq_true_eq] at h ⊢
    exact ⟨⟨⟨by omega, h.1.1.2⟩, h.1.2⟩, h.2⟩

/-- A write keeps the canonical form. -/
theorem Cells.write_wf {hi lo k : Nat} {v : α} {m : List (Nat × α)} (h : Cells.wfFrom d hi lo m = true) (hl : lo ≤ k)
    (hk : k < hi) : Cells.wfFrom d hi lo (Cells.write d m k v) = true := by
  induction m generalizing lo with
  | nil =>
    unfold Cells.write
    split
    · rfl
    · simp [Cells.wfFrom, *]
  | cons c rest ih =>
    obtain ⟨j, w⟩ := c
    have h' := h
    simp only [Cells.wfFrom, Bool.and_eq_true, decide_eq_true_eq] at h
    unfold Cells.write
    split
    · split
      · exact h'
      · simp only [Cells.wfFrom, Bool.and_eq_true, decide_eq_true_eq]
        exact ⟨⟨⟨hl, hk⟩, ‹_›⟩, ⟨⟨by omega, h.1.1.2⟩, h.1.2⟩, h.2⟩
    · split
      · split
        · exact Cells.wfFrom_mono h.2 (by omega)
        · simp only [Cells.wfFrom, Bool.and_eq_true, decide_eq_true_eq]
          subst_vars
          exact ⟨⟨⟨hl, hk⟩, ‹_›⟩, h.2⟩
      · simp only [Cells.wfFrom, Bool.and_eq_true, decide_eq_true_eq]
        exact ⟨h.1, ih h.2 (by omega)⟩

/-- A read after a write to the same key. -/
theorem Cells.read_write_self {hi lo k : Nat} {v : α} {m : List (Nat × α)} (h : Cells.wfFrom d hi lo m = true) :
    Cells.read d (Cells.write d m k v) k = v := by
  induction m generalizing lo with
  | nil =>
    unfold Cells.write
    split <;> simp [Cells.read, *]
  | cons c rest ih =>
    obtain ⟨j, w⟩ := c
    have h' := h
    simp only [Cells.wfFrom, Bool.and_eq_true, decide_eq_true_eq] at h
    unfold Cells.write
    split
    · split
      · subst_vars
        exact Cells.read_of_lt (lo := j) (Cells.wfFrom_mono (lo := j) (by
          simp only [Cells.wfFrom, Bool.and_eq_true, decide_eq_true_eq]
          exact ⟨⟨⟨le_refl _, h.1.1.2⟩, h.1.2⟩, h.2⟩) (le_refl _)) ‹_›
      · simp [Cells.read]
    · split
      · split
        · subst_vars
          exact Cells.read_of_lt h.2 (by omega)
        · simp [Cells.read]
      · have hj : j ≠ k := by omega
        simp only [Cells.read, if_neg hj]
        exact ih h.2

/-- A write leaves every other key alone, in any list. -/
theorem Cells.read_write_other {k k' : Nat} {v : α} (m : List (Nat × α)) (hne : k' ≠ k) :
    Cells.read d (Cells.write d m k v) k' = Cells.read d m k' := by
  induction m with
  | nil =>
    unfold Cells.write
    split
    · rfl
    · simp [Cells.read, hne.symm]
  | cons c rest ih =>
    obtain ⟨j, w⟩ := c
    unfold Cells.write
    split
    · split
      · rfl
      · simp [Cells.read, hne.symm]
    · split
      · subst_vars
        split <;> simp [Cells.read, hne.symm]
      · simp [Cells.read, ih]

/-- Two canonical lists that read alike are the same list: equal memories are equal data. -/
theorem Cells.ext {hi lo : Nat} {m m' : List (Nat × α)} (h : Cells.wfFrom d hi lo m = true)
    (h' : Cells.wfFrom d hi lo m' = true) (heq : ∀ k, Cells.read d m k = Cells.read d m' k) : m = m' := by
  induction m generalizing lo m' with
  | nil =>
    cases m' with
    | nil => rfl
    | cons c rest =>
      simp only [Cells.wfFrom, Bool.and_eq_true, decide_eq_true_eq] at h'
      have := heq c.1
      simp [Cells.read] at this
      exact absurd this.symm h'.1.2
  | cons c rest ih =>
    obtain ⟨j, w⟩ := c
    simp only [Cells.wfFrom, Bool.and_eq_true, decide_eq_true_eq] at h
    cases m' with
    | nil =>
      have := heq j
      simp [Cells.read] at this
      exact absurd this h.1.2
    | cons c' rest' =>
      obtain ⟨j', w'⟩ := c'
      simp only [Cells.wfFrom, Bool.and_eq_true, decide_eq_true_eq] at h'
      have hjj : j = j' := by
        rcases lt_trichotomy j j' with hlt | heq' | hgt
        · have h1 := heq j
          have hne : j' ≠ j := by omega
          simp only [Cells.read, if_neg hne, if_true] at h1
          rw [Cells.read_of_lt h'.2 (by omega)] at h1
          exact absurd h1 h.1.2
        · exact heq'
        · have h1 := heq j'
          have hne : j ≠ j' := by omega
          simp only [Cells.read, if_neg hne, if_true] at h1
          rw [Cells.read_of_lt h.2 (by omega)] at h1
          exact absurd h1.symm h'.1.2
      subst hjj
      have hw : w = w' := by
        have := heq j
        simpa [Cells.read] using this
      subst hw
      have hr : rest = rest' := by
        refine ih h.2 h'.2 fun k => ?_
        by_cases hk : j = k
        · subst hk
          rw [Cells.read_of_lt h.2 (by omega), Cells.read_of_lt h'.2 (by omega)]
        · have := heq k
          simpa [Cells.read, hk] using this
      rw [hr]

/-- RAM: a byte reads as written. -/
theorem Memory.read_write_self {m : List Host.Cell} (h : Memory.wf m = true) (a : Addr) (v : Byte) :
    Memory.read (Memory.write m a v) a = v := Cells.read_write_self h

/-- RAM: every other byte reads as before. -/
theorem Memory.read_write_other (m : List Host.Cell) {a b : Addr} (v : Byte) (hne : b ≠ a) :
    Memory.read (Memory.write m a v) b = Memory.read m b :=
  Cells.read_write_other m fun h => hne (BitVec.eq_of_toNat_eq h)

/-- RAM: both at once. -/
theorem Memory.read_write {m : List Host.Cell} (h : Memory.wf m = true) (a b : Addr) (v : Byte) :
    Memory.read (Memory.write m a v) b = if b = a then v else Memory.read m b := by
  split
  · subst_vars
    exact Memory.read_write_self h _ _
  · exact Memory.read_write_other m v ‹_›

/-- RAM: a write keeps the canonical form. -/
theorem Memory.write_wf {m : List Host.Cell} (h : Memory.wf m = true) (a : Addr) (v : Byte) :
    Memory.wf (Memory.write m a v) = true := Cells.write_wf h (Nat.zero_le _) a.isLt

/-- RAM at reset is canonical. -/
theorem Memory.wf_reset : Memory.wf State.reset.ram = true := rfl

@[simp] theorem State.writeRam_ram (s : State) (a : Addr) (v : Byte) : (s.writeRam a v).ram = Memory.write s.ram a v := rfl

end Sys2Proof.Machine
end

