-- ==== Sys2Proof/Laws/State.lean ====
section
/-! SUPPORT. One lemma per field per update of the state, true by `rfl`, so that no proof unfolds a record update. -/

namespace Sys2Proof.Machine

/-! ### `State.setA` -/

@[simp] theorem State.setA_a (s : State) (v : Byte) : (s.setA v).a = v := rfl
@[simp] theorem State.setA_x (s : State) (v : Byte) : (s.setA v).x = s.x := rfl
@[simp] theorem State.setA_y (s : State) (v : Byte) : (s.setA v).y = s.y := rfl
@[simp] theorem State.setA_sp (s : State) (v : Byte) : (s.setA v).sp = s.sp := rfl
@[simp] theorem State.setA_pc (s : State) (v : Byte) : (s.setA v).pc = s.pc := rfl
@[simp] theorem State.setA_p (s : State) (v : Byte) : (s.setA v).p = s.p := rfl
@[simp] theorem State.setA_cyc (s : State) (v : Byte) : (s.setA v).cyc = s.cyc := rfl
@[simp] theorem State.setA_run (s : State) (v : Byte) : (s.setA v).run = s.run := rfl
@[simp] theorem State.setA_irqLine (s : State) (v : Byte) : (s.setA v).irqLine = s.irqLine := rfl
@[simp] theorem State.setA_nmiLine (s : State) (v : Byte) : (s.setA v).nmiLine = s.nmiLine := rfl
@[simp] theorem State.setA_nmiPending (s : State) (v : Byte) : (s.setA v).nmiPending = s.nmiPending := rfl
@[simp] theorem State.setA_mapctl (s : State) (v : Byte) : (s.setA v).mapctl = s.mapctl := rfl
@[simp] theorem State.setA_ram (s : State) (v : Byte) : (s.setA v).ram = s.ram := rfl
@[simp] theorem State.setA_timers (s : State) (v : Byte) : (s.setA v).timers = s.timers := rfl
@[simp] theorem State.setA_pending (s : State) (v : Byte) : (s.setA v).pending = s.pending := rfl
@[simp] theorem State.setA_video (s : State) (v : Byte) : (s.setA v).video = s.video := rfl
@[simp] theorem State.setA_suzy (s : State) (v : Byte) : (s.setA v).suzy = s.suzy := rfl
@[simp] theorem State.setA_audio (s : State) (v : Byte) : (s.setA v).audio = s.audio := rfl
@[simp] theorem State.setA_cart (s : State) (v : Byte) : (s.setA v).cart = s.cart := rfl
@[simp] theorem State.setA_eeprom (s : State) (v : Byte) : (s.setA v).eeprom = s.eeprom := rfl
@[simp] theorem State.setA_params (s : State) (v : Byte) : (s.setA v).params = s.params := rfl
@[simp] theorem State.setA_freeCtr (s : State) (v : Byte) : (s.setA v).freeCtr = s.freeCtr := rfl
@[simp] theorem State.setA_bus (s : State) (v : Byte) : (s.setA v).bus = s.bus := rfl

/-! ### `State.setX` -/

@[simp] theorem State.setX_a (s : State) (v : Byte) : (s.setX v).a = s.a := rfl
@[simp] theorem State.setX_x (s : State) (v : Byte) : (s.setX v).x = v := rfl
@[simp] theorem State.setX_y (s : State) (v : Byte) : (s.setX v).y = s.y := rfl
@[simp] theorem State.setX_sp (s : State) (v : Byte) : (s.setX v).sp = s.sp := rfl
@[simp] theorem State.setX_pc (s : State) (v : Byte) : (s.setX v).pc = s.pc := rfl
@[simp] theorem State.setX_p (s : State) (v : Byte) : (s.setX v).p = s.p := rfl
@[simp] theorem State.setX_cyc (s : State) (v : Byte) : (s.setX v).cyc = s.cyc := rfl
@[simp] theorem State.setX_run (s : State) (v : Byte) : (s.setX v).run = s.run := rfl
@[simp] theorem State.setX_irqLine (s : State) (v : Byte) : (s.setX v).irqLine = s.irqLine := rfl
@[simp] theorem State.setX_nmiLine (s : State) (v : Byte) : (s.setX v).nmiLine = s.nmiLine := rfl
@[simp] theorem State.setX_nmiPending (s : State) (v : Byte) : (s.setX v).nmiPending = s.nmiPending := rfl
@[simp] theorem State.setX_mapctl (s : State) (v : Byte) : (s.setX v).mapctl = s.mapctl := rfl
@[simp] theorem State.setX_ram (s : State) (v : Byte) : (s.setX v).ram = s.ram := rfl
@[simp] theorem State.setX_timers (s : State) (v : Byte) : (s.setX v).timers = s.timers := rfl
@[simp] theorem State.setX_pending (s : State) (v : Byte) : (s.setX v).pending = s.pending := rfl
@[simp] theorem State.setX_video (s : State) (v : Byte) : (s.setX v).video = s.video := rfl
@[simp] theorem State.setX_suzy (s : State) (v : Byte) : (s.setX v).suzy = s.suzy := rfl
@[simp] theorem State.setX_audio (s : State) (v : Byte) : (s.setX v).audio = s.audio := rfl
@[simp] theorem State.setX_cart (s : State) (v : Byte) : (s.setX v).cart = s.cart := rfl
@[simp] theorem State.setX_eeprom (s : State) (v : Byte) : (s.setX v).eeprom = s.eeprom := rfl
@[simp] theorem State.setX_params (s : State) (v : Byte) : (s.setX v).params = s.params := rfl
@[simp] theorem State.setX_freeCtr (s : State) (v : Byte) : (s.setX v).freeCtr = s.freeCtr := rfl
@[simp] theorem State.setX_bus (s : State) (v : Byte) : (s.setX v).bus = s.bus := rfl

/-! ### `State.setY` -/

@[simp] theorem State.setY_a (s : State) (v : Byte) : (s.setY v).a = s.a := rfl
@[simp] theorem State.setY_x (s : State) (v : Byte) : (s.setY v).x = s.x := rfl
@[simp] theorem State.setY_y (s : State) (v : Byte) : (s.setY v).y = v := rfl
@[simp] theorem State.setY_sp (s : State) (v : Byte) : (s.setY v).sp = s.sp := rfl
@[simp] theorem State.setY_pc (s : State) (v : Byte) : (s.setY v).pc = s.pc := rfl
@[simp] theorem State.setY_p (s : State) (v : Byte) : (s.setY v).p = s.p := rfl
@[simp] theorem State.setY_cyc (s : State) (v : Byte) : (s.setY v).cyc = s.cyc := rfl
@[simp] theorem State.setY_run (s : State) (v : Byte) : (s.setY v).run = s.run := rfl
@[simp] theorem State.setY_irqLine (s : State) (v : Byte) : (s.setY v).irqLine = s.irqLine := rfl
@[simp] theorem State.setY_nmiLine (s : State) (v : Byte) : (s.setY v).nmiLine = s.nmiLine := rfl
@[simp] theorem State.setY_nmiPending (s : State) (v : Byte) : (s.setY v).nmiPending = s.nmiPending := rfl
@[simp] theorem State.setY_mapctl (s : State) (v : Byte) : (s.setY v).mapctl = s.mapctl := rfl
@[simp] theorem State.setY_ram (s : State) (v : Byte) : (s.setY v).ram = s.ram := rfl
@[simp] theorem State.setY_timers (s : State) (v : Byte) : (s.setY v).timers = s.timers := rfl
@[simp] theorem State.setY_pending (s : State) (v : Byte) : (s.setY v).pending = s.pending := rfl
@[simp] theorem State.setY_video (s : State) (v : Byte) : (s.setY v).video = s.video := rfl
@[simp] theorem State.setY_suzy (s : State) (v : Byte) : (s.setY v).suzy = s.suzy := rfl
@[simp] theorem State.setY_audio (s : State) (v : Byte) : (s.setY v).audio = s.audio := rfl
@[simp] theorem State.setY_cart (s : State) (v : Byte) : (s.setY v).cart = s.cart := rfl
@[simp] theorem State.setY_eeprom (s : State) (v : Byte) : (s.setY v).eeprom = s.eeprom := rfl
@[simp] theorem State.setY_params (s : State) (v : Byte) : (s.setY v).params = s.params := rfl
@[simp] theorem State.setY_freeCtr (s : State) (v : Byte) : (s.setY v).freeCtr = s.freeCtr := rfl
@[simp] theorem State.setY_bus (s : State) (v : Byte) : (s.setY v).bus = s.bus := rfl

/-! ### `State.setSp` -/

@[simp] theorem State.setSp_a (s : State) (v : Byte) : (s.setSp v).a = s.a := rfl
@[simp] theorem State.setSp_x (s : State) (v : Byte) : (s.setSp v).x = s.x := rfl
@[simp] theorem State.setSp_y (s : State) (v : Byte) : (s.setSp v).y = s.y := rfl
@[simp] theorem State.setSp_sp (s : State) (v : Byte) : (s.setSp v).sp = v := rfl
@[simp] theorem State.setSp_pc (s : State) (v : Byte) : (s.setSp v).pc = s.pc := rfl
@[simp] theorem State.setSp_p (s : State) (v : Byte) : (s.setSp v).p = s.p := rfl
@[simp] theorem State.setSp_cyc (s : State) (v : Byte) : (s.setSp v).cyc = s.cyc := rfl
@[simp] theorem State.setSp_run (s : State) (v : Byte) : (s.setSp v).run = s.run := rfl
@[simp] theorem State.setSp_irqLine (s : State) (v : Byte) : (s.setSp v).irqLine = s.irqLine := rfl
@[simp] theorem State.setSp_nmiLine (s : State) (v : Byte) : (s.setSp v).nmiLine = s.nmiLine := rfl
@[simp] theorem State.setSp_nmiPending (s : State) (v : Byte) : (s.setSp v).nmiPending = s.nmiPending := rfl
@[simp] theorem State.setSp_mapctl (s : State) (v : Byte) : (s.setSp v).mapctl = s.mapctl := rfl
@[simp] theorem State.setSp_ram (s : State) (v : Byte) : (s.setSp v).ram = s.ram := rfl
@[simp] theorem State.setSp_timers (s : State) (v : Byte) : (s.setSp v).timers = s.timers := rfl
@[simp] theorem State.setSp_pending (s : State) (v : Byte) : (s.setSp v).pending = s.pending := rfl
@[simp] theorem State.setSp_video (s : State) (v : Byte) : (s.setSp v).video = s.video := rfl
@[simp] theorem State.setSp_suzy (s : State) (v : Byte) : (s.setSp v).suzy = s.suzy := rfl
@[simp] theorem State.setSp_audio (s : State) (v : Byte) : (s.setSp v).audio = s.audio := rfl
@[simp] theorem State.setSp_cart (s : State) (v : Byte) : (s.setSp v).cart = s.cart := rfl
@[simp] theorem State.setSp_eeprom (s : State) (v : Byte) : (s.setSp v).eeprom = s.eeprom := rfl
@[simp] theorem State.setSp_params (s : State) (v : Byte) : (s.setSp v).params = s.params := rfl
@[simp] theorem State.setSp_freeCtr (s : State) (v : Byte) : (s.setSp v).freeCtr = s.freeCtr := rfl
@[simp] theorem State.setSp_bus (s : State) (v : Byte) : (s.setSp v).bus = s.bus := rfl

/-! ### `State.setPc` -/

@[simp] theorem State.setPc_a (s : State) (v : Addr) : (s.setPc v).a = s.a := rfl
@[simp] theorem State.setPc_x (s : State) (v : Addr) : (s.setPc v).x = s.x := rfl
@[simp] theorem State.setPc_y (s : State) (v : Addr) : (s.setPc v).y = s.y := rfl
@[simp] theorem State.setPc_sp (s : State) (v : Addr) : (s.setPc v).sp = s.sp := rfl
@[simp] theorem State.setPc_pc (s : State) (v : Addr) : (s.setPc v).pc = v := rfl
@[simp] theorem State.setPc_p (s : State) (v : Addr) : (s.setPc v).p = s.p := rfl
@[simp] theorem State.setPc_cyc (s : State) (v : Addr) : (s.setPc v).cyc = s.cyc := rfl
@[simp] theorem State.setPc_run (s : State) (v : Addr) : (s.setPc v).run = s.run := rfl
@[simp] theorem State.setPc_irqLine (s : State) (v : Addr) : (s.setPc v).irqLine = s.irqLine := rfl
@[simp] theorem State.setPc_nmiLine (s : State) (v : Addr) : (s.setPc v).nmiLine = s.nmiLine := rfl
@[simp] theorem State.setPc_nmiPending (s : State) (v : Addr) : (s.setPc v).nmiPending = s.nmiPending := rfl
@[simp] theorem State.setPc_mapctl (s : State) (v : Addr) : (s.setPc v).mapctl = s.mapctl := rfl
@[simp] theorem State.setPc_ram (s : State) (v : Addr) : (s.setPc v).ram = s.ram := rfl
@[simp] theorem State.setPc_timers (s : State) (v : Addr) : (s.setPc v).timers = s.timers := rfl
@[simp] theorem State.setPc_pending (s : State) (v : Addr) : (s.setPc v).pending = s.pending := rfl
@[simp] theorem State.setPc_video (s : State) (v : Addr) : (s.setPc v).video = s.video := rfl
@[simp] theorem State.setPc_suzy (s : State) (v : Addr) : (s.setPc v).suzy = s.suzy := rfl
@[simp] theorem State.setPc_audio (s : State) (v : Addr) : (s.setPc v).audio = s.audio := rfl
@[simp] theorem State.setPc_cart (s : State) (v : Addr) : (s.setPc v).cart = s.cart := rfl
@[simp] theorem State.setPc_eeprom (s : State) (v : Addr) : (s.setPc v).eeprom = s.eeprom := rfl
@[simp] theorem State.setPc_params (s : State) (v : Addr) : (s.setPc v).params = s.params := rfl
@[simp] theorem State.setPc_freeCtr (s : State) (v : Addr) : (s.setPc v).freeCtr = s.freeCtr := rfl
@[simp] theorem State.setPc_bus (s : State) (v : Addr) : (s.setPc v).bus = s.bus := rfl

/-! ### `State.setP` -/

@[simp] theorem State.setP_a (s : State) (f : Flags) : (s.setP f).a = s.a := rfl
@[simp] theorem State.setP_x (s : State) (f : Flags) : (s.setP f).x = s.x := rfl
@[simp] theorem State.setP_y (s : State) (f : Flags) : (s.setP f).y = s.y := rfl
@[simp] theorem State.setP_sp (s : State) (f : Flags) : (s.setP f).sp = s.sp := rfl
@[simp] theorem State.setP_pc (s : State) (f : Flags) : (s.setP f).pc = s.pc := rfl
@[simp] theorem State.setP_p (s : State) (f : Flags) : (s.setP f).p = f := rfl
@[simp] theorem State.setP_cyc (s : State) (f : Flags) : (s.setP f).cyc = s.cyc := rfl
@[simp] theorem State.setP_run (s : State) (f : Flags) : (s.setP f).run = s.run := rfl
@[simp] theorem State.setP_irqLine (s : State) (f : Flags) : (s.setP f).irqLine = s.irqLine := rfl
@[simp] theorem State.setP_nmiLine (s : State) (f : Flags) : (s.setP f).nmiLine = s.nmiLine := rfl
@[simp] theorem State.setP_nmiPending (s : State) (f : Flags) : (s.setP f).nmiPending = s.nmiPending := rfl
@[simp] theorem State.setP_mapctl (s : State) (f : Flags) : (s.setP f).mapctl = s.mapctl := rfl
@[simp] theorem State.setP_ram (s : State) (f : Flags) : (s.setP f).ram = s.ram := rfl
@[simp] theorem State.setP_timers (s : State) (f : Flags) : (s.setP f).timers = s.timers := rfl
@[simp] theorem State.setP_pending (s : State) (f : Flags) : (s.setP f).pending = s.pending := rfl
@[simp] theorem State.setP_video (s : State) (f : Flags) : (s.setP f).video = s.video := rfl
@[simp] theorem State.setP_suzy (s : State) (f : Flags) : (s.setP f).suzy = s.suzy := rfl
@[simp] theorem State.setP_audio (s : State) (f : Flags) : (s.setP f).audio = s.audio := rfl
@[simp] theorem State.setP_cart (s : State) (f : Flags) : (s.setP f).cart = s.cart := rfl
@[simp] theorem State.setP_eeprom (s : State) (f : Flags) : (s.setP f).eeprom = s.eeprom := rfl
@[simp] theorem State.setP_params (s : State) (f : Flags) : (s.setP f).params = s.params := rfl
@[simp] theorem State.setP_freeCtr (s : State) (f : Flags) : (s.setP f).freeCtr = s.freeCtr := rfl
@[simp] theorem State.setP_bus (s : State) (f : Flags) : (s.setP f).bus = s.bus := rfl

/-! ### `State.setRun` -/

@[simp] theorem State.setRun_a (s : State) (r : RunState) : (s.setRun r).a = s.a := rfl
@[simp] theorem State.setRun_x (s : State) (r : RunState) : (s.setRun r).x = s.x := rfl
@[simp] theorem State.setRun_y (s : State) (r : RunState) : (s.setRun r).y = s.y := rfl
@[simp] theorem State.setRun_sp (s : State) (r : RunState) : (s.setRun r).sp = s.sp := rfl
@[simp] theorem State.setRun_pc (s : State) (r : RunState) : (s.setRun r).pc = s.pc := rfl
@[simp] theorem State.setRun_p (s : State) (r : RunState) : (s.setRun r).p = s.p := rfl
@[simp] theorem State.setRun_cyc (s : State) (r : RunState) : (s.setRun r).cyc = s.cyc := rfl
@[simp] theorem State.setRun_run (s : State) (r : RunState) : (s.setRun r).run = r := rfl
@[simp] theorem State.setRun_irqLine (s : State) (r : RunState) : (s.setRun r).irqLine = s.irqLine := rfl
@[simp] theorem State.setRun_nmiLine (s : State) (r : RunState) : (s.setRun r).nmiLine = s.nmiLine := rfl
@[simp] theorem State.setRun_nmiPending (s : State) (r : RunState) : (s.setRun r).nmiPending = s.nmiPending := rfl
@[simp] theorem State.setRun_mapctl (s : State) (r : RunState) : (s.setRun r).mapctl = s.mapctl := rfl
@[simp] theorem State.setRun_ram (s : State) (r : RunState) : (s.setRun r).ram = s.ram := rfl
@[simp] theorem State.setRun_timers (s : State) (r : RunState) : (s.setRun r).timers = s.timers := rfl
@[simp] theorem State.setRun_pending (s : State) (r : RunState) : (s.setRun r).pending = s.pending := rfl
@[simp] theorem State.setRun_video (s : State) (r : RunState) : (s.setRun r).video = s.video := rfl
@[simp] theorem State.setRun_suzy (s : State) (r : RunState) : (s.setRun r).suzy = s.suzy := rfl
@[simp] theorem State.setRun_audio (s : State) (r : RunState) : (s.setRun r).audio = s.audio := rfl
@[simp] theorem State.setRun_cart (s : State) (r : RunState) : (s.setRun r).cart = s.cart := rfl
@[simp] theorem State.setRun_eeprom (s : State) (r : RunState) : (s.setRun r).eeprom = s.eeprom := rfl
@[simp] theorem State.setRun_params (s : State) (r : RunState) : (s.setRun r).params = s.params := rfl
@[simp] theorem State.setRun_freeCtr (s : State) (r : RunState) : (s.setRun r).freeCtr = s.freeCtr := rfl
@[simp] theorem State.setRun_bus (s : State) (r : RunState) : (s.setRun r).bus = s.bus := rfl

/-! ### `State.setRam` -/

@[simp] theorem State.setRam_a (s : State) (m : List Host.Cell) : (s.setRam m).a = s.a := rfl
@[simp] theorem State.setRam_x (s : State) (m : List Host.Cell) : (s.setRam m).x = s.x := rfl
@[simp] theorem State.setRam_y (s : State) (m : List Host.Cell) : (s.setRam m).y = s.y := rfl
@[simp] theorem State.setRam_sp (s : State) (m : List Host.Cell) : (s.setRam m).sp = s.sp := rfl
@[simp] theorem State.setRam_pc (s : State) (m : List Host.Cell) : (s.setRam m).pc = s.pc := rfl
@[simp] theorem State.setRam_p (s : State) (m : List Host.Cell) : (s.setRam m).p = s.p := rfl
@[simp] theorem State.setRam_cyc (s : State) (m : List Host.Cell) : (s.setRam m).cyc = s.cyc := rfl
@[simp] theorem State.setRam_run (s : State) (m : List Host.Cell) : (s.setRam m).run = s.run := rfl
@[simp] theorem State.setRam_irqLine (s : State) (m : List Host.Cell) : (s.setRam m).irqLine = s.irqLine := rfl
@[simp] theorem State.setRam_nmiLine (s : State) (m : List Host.Cell) : (s.setRam m).nmiLine = s.nmiLine := rfl
@[simp] theorem State.setRam_nmiPending (s : State) (m : List Host.Cell) : (s.setRam m).nmiPending = s.nmiPending := rfl
@[simp] theorem State.setRam_mapctl (s : State) (m : List Host.Cell) : (s.setRam m).mapctl = s.mapctl := rfl
@[simp] theorem State.setRam_ram (s : State) (m : List Host.Cell) : (s.setRam m).ram = m := rfl
@[simp] theorem State.setRam_timers (s : State) (m : List Host.Cell) : (s.setRam m).timers = s.timers := rfl
@[simp] theorem State.setRam_pending (s : State) (m : List Host.Cell) : (s.setRam m).pending = s.pending := rfl
@[simp] theorem State.setRam_video (s : State) (m : List Host.Cell) : (s.setRam m).video = s.video := rfl
@[simp] theorem State.setRam_suzy (s : State) (m : List Host.Cell) : (s.setRam m).suzy = s.suzy := rfl
@[simp] theorem State.setRam_audio (s : State) (m : List Host.Cell) : (s.setRam m).audio = s.audio := rfl
@[simp] theorem State.setRam_cart (s : State) (m : List Host.Cell) : (s.setRam m).cart = s.cart := rfl
@[simp] theorem State.setRam_eeprom (s : State) (m : List Host.Cell) : (s.setRam m).eeprom = s.eeprom := rfl
@[simp] theorem State.setRam_params (s : State) (m : List Host.Cell) : (s.setRam m).params = s.params := rfl
@[simp] theorem State.setRam_freeCtr (s : State) (m : List Host.Cell) : (s.setRam m).freeCtr = s.freeCtr := rfl
@[simp] theorem State.setRam_bus (s : State) (m : List Host.Cell) : (s.setRam m).bus = s.bus := rfl

/-! ### `State.setIrqLine` -/

@[simp] theorem State.setIrqLine_a (s : State) (b : Bool) : (s.setIrqLine b).a = s.a := rfl
@[simp] theorem State.setIrqLine_x (s : State) (b : Bool) : (s.setIrqLine b).x = s.x := rfl
@[simp] theorem State.setIrqLine_y (s : State) (b : Bool) : (s.setIrqLine b).y = s.y := rfl
@[simp] theorem State.setIrqLine_sp (s : State) (b : Bool) : (s.setIrqLine b).sp = s.sp := rfl
@[simp] theorem State.setIrqLine_pc (s : State) (b : Bool) : (s.setIrqLine b).pc = s.pc := rfl
@[simp] theorem State.setIrqLine_p (s : State) (b : Bool) : (s.setIrqLine b).p = s.p := rfl
@[simp] theorem State.setIrqLine_cyc (s : State) (b : Bool) : (s.setIrqLine b).cyc = s.cyc := rfl
@[simp] theorem State.setIrqLine_run (s : State) (b : Bool) : (s.setIrqLine b).run = s.run := rfl
@[simp] theorem State.setIrqLine_irqLine (s : State) (b : Bool) : (s.setIrqLine b).irqLine = b := rfl
@[simp] theorem State.setIrqLine_nmiLine (s : State) (b : Bool) : (s.setIrqLine b).nmiLine = s.nmiLine := rfl
@[simp] theorem State.setIrqLine_nmiPending (s : State) (b : Bool) : (s.setIrqLine b).nmiPending = s.nmiPending := rfl
@[simp] theorem State.setIrqLine_mapctl (s : State) (b : Bool) : (s.setIrqLine b).mapctl = s.mapctl := rfl
@[simp] theorem State.setIrqLine_ram (s : State) (b : Bool) : (s.setIrqLine b).ram = s.ram := rfl
@[simp] theorem State.setIrqLine_timers (s : State) (b : Bool) : (s.setIrqLine b).timers = s.timers := rfl
@[simp] theorem State.setIrqLine_pending (s : State) (b : Bool) : (s.setIrqLine b).pending = s.pending := rfl
@[simp] theorem State.setIrqLine_video (s : State) (b : Bool) : (s.setIrqLine b).video = s.video := rfl
@[simp] theorem State.setIrqLine_suzy (s : State) (b : Bool) : (s.setIrqLine b).suzy = s.suzy := rfl
@[simp] theorem State.setIrqLine_audio (s : State) (b : Bool) : (s.setIrqLine b).audio = s.audio := rfl
@[simp] theorem State.setIrqLine_cart (s : State) (b : Bool) : (s.setIrqLine b).cart = s.cart := rfl
@[simp] theorem State.setIrqLine_eeprom (s : State) (b : Bool) : (s.setIrqLine b).eeprom = s.eeprom := rfl
@[simp] theorem State.setIrqLine_params (s : State) (b : Bool) : (s.setIrqLine b).params = s.params := rfl
@[simp] theorem State.setIrqLine_freeCtr (s : State) (b : Bool) : (s.setIrqLine b).freeCtr = s.freeCtr := rfl
@[simp] theorem State.setIrqLine_bus (s : State) (b : Bool) : (s.setIrqLine b).bus = s.bus := rfl

/-! ### `State.setTimer` -/

@[simp] theorem State.setTimer_a (s : State) (n : Fin 8) (t : Timer) : (s.setTimer n t).a = s.a := rfl
@[simp] theorem State.setTimer_x (s : State) (n : Fin 8) (t : Timer) : (s.setTimer n t).x = s.x := rfl
@[simp] theorem State.setTimer_y (s : State) (n : Fin 8) (t : Timer) : (s.setTimer n t).y = s.y := rfl
@[simp] theorem State.setTimer_sp (s : State) (n : Fin 8) (t : Timer) : (s.setTimer n t).sp = s.sp := rfl
@[simp] theorem State.setTimer_pc (s : State) (n : Fin 8) (t : Timer) : (s.setTimer n t).pc = s.pc := rfl
@[simp] theorem State.setTimer_p (s : State) (n : Fin 8) (t : Timer) : (s.setTimer n t).p = s.p := rfl
@[simp] theorem State.setTimer_cyc (s : State) (n : Fin 8) (t : Timer) : (s.setTimer n t).cyc = s.cyc := rfl
@[simp] theorem State.setTimer_run (s : State) (n : Fin 8) (t : Timer) : (s.setTimer n t).run = s.run := rfl
@[simp] theorem State.setTimer_irqLine (s : State) (n : Fin 8) (t : Timer) : (s.setTimer n t).irqLine = s.irqLine := rfl
@[simp] theorem State.setTimer_nmiLine (s : State) (n : Fin 8) (t : Timer) : (s.setTimer n t).nmiLine = s.nmiLine := rfl
@[simp] theorem State.setTimer_nmiPending (s : State) (n : Fin 8) (t : Timer) : (s.setTimer n t).nmiPending = s.nmiPending := rfl
@[simp] theorem State.setTimer_mapctl (s : State) (n : Fin 8) (t : Timer) : (s.setTimer n t).mapctl = s.mapctl := rfl
@[simp] theorem State.setTimer_ram (s : State) (n : Fin 8) (t : Timer) : (s.setTimer n t).ram = s.ram := rfl
@[simp] theorem State.setTimer_timers (s : State) (n : Fin 8) (t : Timer) : (s.setTimer n t).timers = s.timers.set n t := rfl
@[simp] theorem State.setTimer_pending (s : State) (n : Fin 8) (t : Timer) : (s.setTimer n t).pending = s.pending := rfl
@[simp] theorem State.setTimer_video (s : State) (n : Fin 8) (t : Timer) : (s.setTimer n t).video = s.video := rfl
@[simp] theorem State.setTimer_suzy (s : State) (n : Fin 8) (t : Timer) : (s.setTimer n t).suzy = s.suzy := rfl
@[simp] theorem State.setTimer_audio (s : State) (n : Fin 8) (t : Timer) : (s.setTimer n t).audio = s.audio := rfl
@[simp] theorem State.setTimer_cart (s : State) (n : Fin 8) (t : Timer) : (s.setTimer n t).cart = s.cart := rfl
@[simp] theorem State.setTimer_eeprom (s : State) (n : Fin 8) (t : Timer) : (s.setTimer n t).eeprom = s.eeprom := rfl
@[simp] theorem State.setTimer_params (s : State) (n : Fin 8) (t : Timer) : (s.setTimer n t).params = s.params := rfl
@[simp] theorem State.setTimer_freeCtr (s : State) (n : Fin 8) (t : Timer) : (s.setTimer n t).freeCtr = s.freeCtr := rfl
@[simp] theorem State.setTimer_bus (s : State) (n : Fin 8) (t : Timer) : (s.setTimer n t).bus = s.bus := rfl

/-! ### `State.setVideo` -/

@[simp] theorem State.setVideo_a (s : State) (v : Video) : (s.setVideo v).a = s.a := rfl
@[simp] theorem State.setVideo_x (s : State) (v : Video) : (s.setVideo v).x = s.x := rfl
@[simp] theorem State.setVideo_y (s : State) (v : Video) : (s.setVideo v).y = s.y := rfl
@[simp] theorem State.setVideo_sp (s : State) (v : Video) : (s.setVideo v).sp = s.sp := rfl
@[simp] theorem State.setVideo_pc (s : State) (v : Video) : (s.setVideo v).pc = s.pc := rfl
@[simp] theorem State.setVideo_p (s : State) (v : Video) : (s.setVideo v).p = s.p := rfl
@[simp] theorem State.setVideo_cyc (s : State) (v : Video) : (s.setVideo v).cyc = s.cyc := rfl
@[simp] theorem State.setVideo_run (s : State) (v : Video) : (s.setVideo v).run = s.run := rfl
@[simp] theorem State.setVideo_irqLine (s : State) (v : Video) : (s.setVideo v).irqLine = s.irqLine := rfl
@[simp] theorem State.setVideo_nmiLine (s : State) (v : Video) : (s.setVideo v).nmiLine = s.nmiLine := rfl
@[simp] theorem State.setVideo_nmiPending (s : State) (v : Video) : (s.setVideo v).nmiPending = s.nmiPending := rfl
@[simp] theorem State.setVideo_mapctl (s : State) (v : Video) : (s.setVideo v).mapctl = s.mapctl := rfl
@[simp] theorem State.setVideo_ram (s : State) (v : Video) : (s.setVideo v).ram = s.ram := rfl
@[simp] theorem State.setVideo_timers (s : State) (v : Video) : (s.setVideo v).timers = s.timers := rfl
@[simp] theorem State.setVideo_pending (s : State) (v : Video) : (s.setVideo v).pending = s.pending := rfl
@[simp] theorem State.setVideo_video (s : State) (v : Video) : (s.setVideo v).video = v := rfl
@[simp] theorem State.setVideo_suzy (s : State) (v : Video) : (s.setVideo v).suzy = s.suzy := rfl
@[simp] theorem State.setVideo_audio (s : State) (v : Video) : (s.setVideo v).audio = s.audio := rfl
@[simp] theorem State.setVideo_cart (s : State) (v : Video) : (s.setVideo v).cart = s.cart := rfl
@[simp] theorem State.setVideo_eeprom (s : State) (v : Video) : (s.setVideo v).eeprom = s.eeprom := rfl
@[simp] theorem State.setVideo_params (s : State) (v : Video) : (s.setVideo v).params = s.params := rfl
@[simp] theorem State.setVideo_freeCtr (s : State) (v : Video) : (s.setVideo v).freeCtr = s.freeCtr := rfl
@[simp] theorem State.setVideo_bus (s : State) (v : Video) : (s.setVideo v).bus = s.bus := rfl

/-! ### `State.setSuzy` -/

@[simp] theorem State.setSuzy_a (s : State) (z : Suzy) : (s.setSuzy z).a = s.a := rfl
@[simp] theorem State.setSuzy_x (s : State) (z : Suzy) : (s.setSuzy z).x = s.x := rfl
@[simp] theorem State.setSuzy_y (s : State) (z : Suzy) : (s.setSuzy z).y = s.y := rfl
@[simp] theorem State.setSuzy_sp (s : State) (z : Suzy) : (s.setSuzy z).sp = s.sp := rfl
@[simp] theorem State.setSuzy_pc (s : State) (z : Suzy) : (s.setSuzy z).pc = s.pc := rfl
@[simp] theorem State.setSuzy_p (s : State) (z : Suzy) : (s.setSuzy z).p = s.p := rfl
@[simp] theorem State.setSuzy_cyc (s : State) (z : Suzy) : (s.setSuzy z).cyc = s.cyc := rfl
@[simp] theorem State.setSuzy_run (s : State) (z : Suzy) : (s.setSuzy z).run = s.run := rfl
@[simp] theorem State.setSuzy_irqLine (s : State) (z : Suzy) : (s.setSuzy z).irqLine = s.irqLine := rfl
@[simp] theorem State.setSuzy_nmiLine (s : State) (z : Suzy) : (s.setSuzy z).nmiLine = s.nmiLine := rfl
@[simp] theorem State.setSuzy_nmiPending (s : State) (z : Suzy) : (s.setSuzy z).nmiPending = s.nmiPending := rfl
@[simp] theorem State.setSuzy_mapctl (s : State) (z : Suzy) : (s.setSuzy z).mapctl = s.mapctl := rfl
@[simp] theorem State.setSuzy_ram (s : State) (z : Suzy) : (s.setSuzy z).ram = s.ram := rfl
@[simp] theorem State.setSuzy_timers (s : State) (z : Suzy) : (s.setSuzy z).timers = s.timers := rfl
@[simp] theorem State.setSuzy_pending (s : State) (z : Suzy) : (s.setSuzy z).pending = s.pending := rfl
@[simp] theorem State.setSuzy_video (s : State) (z : Suzy) : (s.setSuzy z).video = s.video := rfl
@[simp] theorem State.setSuzy_suzy (s : State) (z : Suzy) : (s.setSuzy z).suzy = z := rfl
@[simp] theorem State.setSuzy_audio (s : State) (z : Suzy) : (s.setSuzy z).audio = s.audio := rfl
@[simp] theorem State.setSuzy_cart (s : State) (z : Suzy) : (s.setSuzy z).cart = s.cart := rfl
@[simp] theorem State.setSuzy_eeprom (s : State) (z : Suzy) : (s.setSuzy z).eeprom = s.eeprom := rfl
@[simp] theorem State.setSuzy_params (s : State) (z : Suzy) : (s.setSuzy z).params = s.params := rfl
@[simp] theorem State.setSuzy_freeCtr (s : State) (z : Suzy) : (s.setSuzy z).freeCtr = s.freeCtr := rfl
@[simp] theorem State.setSuzy_bus (s : State) (z : Suzy) : (s.setSuzy z).bus = s.bus := rfl

/-! ### `State.setChannel` -/

@[simp] theorem State.setChannel_a (s : State) (c : Fin 4) (ch : Channel) : (s.setChannel c ch).a = s.a := rfl
@[simp] theorem State.setChannel_x (s : State) (c : Fin 4) (ch : Channel) : (s.setChannel c ch).x = s.x := rfl
@[simp] theorem State.setChannel_y (s : State) (c : Fin 4) (ch : Channel) : (s.setChannel c ch).y = s.y := rfl
@[simp] theorem State.setChannel_sp (s : State) (c : Fin 4) (ch : Channel) : (s.setChannel c ch).sp = s.sp := rfl
@[simp] theorem State.setChannel_pc (s : State) (c : Fin 4) (ch : Channel) : (s.setChannel c ch).pc = s.pc := rfl
@[simp] theorem State.setChannel_p (s : State) (c : Fin 4) (ch : Channel) : (s.setChannel c ch).p = s.p := rfl
@[simp] theorem State.setChannel_cyc (s : State) (c : Fin 4) (ch : Channel) : (s.setChannel c ch).cyc = s.cyc := rfl
@[simp] theorem State.setChannel_run (s : State) (c : Fin 4) (ch : Channel) : (s.setChannel c ch).run = s.run := rfl
@[simp] theorem State.setChannel_irqLine (s : State) (c : Fin 4) (ch : Channel) : (s.setChannel c ch).irqLine = s.irqLine := rfl
@[simp] theorem State.setChannel_nmiLine (s : State) (c : Fin 4) (ch : Channel) : (s.setChannel c ch).nmiLine = s.nmiLine := rfl
@[simp] theorem State.setChannel_nmiPending (s : State) (c : Fin 4) (ch : Channel) : (s.setChannel c ch).nmiPending = s.nmiPending := rfl
@[simp] theorem State.setChannel_mapctl (s : State) (c : Fin 4) (ch : Channel) : (s.setChannel c ch).mapctl = s.mapctl := rfl
@[simp] theorem State.setChannel_ram (s : State) (c : Fin 4) (ch : Channel) : (s.setChannel c ch).ram = s.ram := rfl
@[simp] theorem State.setChannel_timers (s : State) (c : Fin 4) (ch : Channel) : (s.setChannel c ch).timers = s.timers := rfl
@[simp] theorem State.setChannel_pending (s : State) (c : Fin 4) (ch : Channel) : (s.setChannel c ch).pending = s.pending := rfl
@[simp] theorem State.setChannel_video (s : State) (c : Fin 4) (ch : Channel) : (s.setChannel c ch).video = s.video := rfl
@[simp] theorem State.setChannel_suzy (s : State) (c : Fin 4) (ch : Channel) : (s.setChannel c ch).suzy = s.suzy := rfl
@[simp] theorem State.setChannel_audio (s : State) (c : Fin 4) (ch : Channel) : (s.setChannel c ch).audio = { s.audio with channels := s.audio.channels.set c ch } := rfl
@[simp] theorem State.setChannel_cart (s : State) (c : Fin 4) (ch : Channel) : (s.setChannel c ch).cart = s.cart := rfl
@[simp] theorem State.setChannel_eeprom (s : State) (c : Fin 4) (ch : Channel) : (s.setChannel c ch).eeprom = s.eeprom := rfl
@[simp] theorem State.setChannel_params (s : State) (c : Fin 4) (ch : Channel) : (s.setChannel c ch).params = s.params := rfl
@[simp] theorem State.setChannel_freeCtr (s : State) (c : Fin 4) (ch : Channel) : (s.setChannel c ch).freeCtr = s.freeCtr := rfl
@[simp] theorem State.setChannel_bus (s : State) (c : Fin 4) (ch : Channel) : (s.setChannel c ch).bus = s.bus := rfl

/-! ### `State.setCart` -/

@[simp] theorem State.setCart_a (s : State) (v : Cart) : (s.setCart v).a = s.a := rfl
@[simp] theorem State.setCart_x (s : State) (v : Cart) : (s.setCart v).x = s.x := rfl
@[simp] theorem State.setCart_y (s : State) (v : Cart) : (s.setCart v).y = s.y := rfl
@[simp] theorem State.setCart_sp (s : State) (v : Cart) : (s.setCart v).sp = s.sp := rfl
@[simp] theorem State.setCart_pc (s : State) (v : Cart) : (s.setCart v).pc = s.pc := rfl
@[simp] theorem State.setCart_p (s : State) (v : Cart) : (s.setCart v).p = s.p := rfl
@[simp] theorem State.setCart_cyc (s : State) (v : Cart) : (s.setCart v).cyc = s.cyc := rfl
@[simp] theorem State.setCart_run (s : State) (v : Cart) : (s.setCart v).run = s.run := rfl
@[simp] theorem State.setCart_irqLine (s : State) (v : Cart) : (s.setCart v).irqLine = s.irqLine := rfl
@[simp] theorem State.setCart_nmiLine (s : State) (v : Cart) : (s.setCart v).nmiLine = s.nmiLine := rfl
@[simp] theorem State.setCart_nmiPending (s : State) (v : Cart) : (s.setCart v).nmiPending = s.nmiPending := rfl
@[simp] theorem State.setCart_mapctl (s : State) (v : Cart) : (s.setCart v).mapctl = s.mapctl := rfl
@[simp] theorem State.setCart_ram (s : State) (v : Cart) : (s.setCart v).ram = s.ram := rfl
@[simp] theorem State.setCart_timers (s : State) (v : Cart) : (s.setCart v).timers = s.timers := rfl
@[simp] theorem State.setCart_pending (s : State) (v : Cart) : (s.setCart v).pending = s.pending := rfl
@[simp] theorem State.setCart_video (s : State) (v : Cart) : (s.setCart v).video = s.video := rfl
@[simp] theorem State.setCart_suzy (s : State) (v : Cart) : (s.setCart v).suzy = s.suzy := rfl
@[simp] theorem State.setCart_audio (s : State) (v : Cart) : (s.setCart v).audio = s.audio := rfl
@[simp] theorem State.setCart_cart (s : State) (v : Cart) : (s.setCart v).cart = v := rfl
@[simp] theorem State.setCart_eeprom (s : State) (v : Cart) : (s.setCart v).eeprom = s.eeprom := rfl
@[simp] theorem State.setCart_params (s : State) (v : Cart) : (s.setCart v).params = s.params := rfl
@[simp] theorem State.setCart_freeCtr (s : State) (v : Cart) : (s.setCart v).freeCtr = s.freeCtr := rfl
@[simp] theorem State.setCart_bus (s : State) (v : Cart) : (s.setCart v).bus = s.bus := rfl

/-! ### `State.setEeprom` -/

@[simp] theorem State.setEeprom_a (s : State) (v : Eeprom) : (s.setEeprom v).a = s.a := rfl
@[simp] theorem State.setEeprom_x (s : State) (v : Eeprom) : (s.setEeprom v).x = s.x := rfl
@[simp] theorem State.setEeprom_y (s : State) (v : Eeprom) : (s.setEeprom v).y = s.y := rfl
@[simp] theorem State.setEeprom_sp (s : State) (v : Eeprom) : (s.setEeprom v).sp = s.sp := rfl
@[simp] theorem State.setEeprom_pc (s : State) (v : Eeprom) : (s.setEeprom v).pc = s.pc := rfl
@[simp] theorem State.setEeprom_p (s : State) (v : Eeprom) : (s.setEeprom v).p = s.p := rfl
@[simp] theorem State.setEeprom_cyc (s : State) (v : Eeprom) : (s.setEeprom v).cyc = s.cyc := rfl
@[simp] theorem State.setEeprom_run (s : State) (v : Eeprom) : (s.setEeprom v).run = s.run := rfl
@[simp] theorem State.setEeprom_irqLine (s : State) (v : Eeprom) : (s.setEeprom v).irqLine = s.irqLine := rfl
@[simp] theorem State.setEeprom_nmiLine (s : State) (v : Eeprom) : (s.setEeprom v).nmiLine = s.nmiLine := rfl
@[simp] theorem State.setEeprom_nmiPending (s : State) (v : Eeprom) : (s.setEeprom v).nmiPending = s.nmiPending := rfl
@[simp] theorem State.setEeprom_mapctl (s : State) (v : Eeprom) : (s.setEeprom v).mapctl = s.mapctl := rfl
@[simp] theorem State.setEeprom_ram (s : State) (v : Eeprom) : (s.setEeprom v).ram = s.ram := rfl
@[simp] theorem State.setEeprom_timers (s : State) (v : Eeprom) : (s.setEeprom v).timers = s.timers := rfl
@[simp] theorem State.setEeprom_pending (s : State) (v : Eeprom) : (s.setEeprom v).pending = s.pending := rfl
@[simp] theorem State.setEeprom_video (s : State) (v : Eeprom) : (s.setEeprom v).video = s.video := rfl
@[simp] theorem State.setEeprom_suzy (s : State) (v : Eeprom) : (s.setEeprom v).suzy = s.suzy := rfl
@[simp] theorem State.setEeprom_audio (s : State) (v : Eeprom) : (s.setEeprom v).audio = s.audio := rfl
@[simp] theorem State.setEeprom_cart (s : State) (v : Eeprom) : (s.setEeprom v).cart = s.cart := rfl
@[simp] theorem State.setEeprom_eeprom (s : State) (v : Eeprom) : (s.setEeprom v).eeprom = v := rfl
@[simp] theorem State.setEeprom_params (s : State) (v : Eeprom) : (s.setEeprom v).params = s.params := rfl
@[simp] theorem State.setEeprom_freeCtr (s : State) (v : Eeprom) : (s.setEeprom v).freeCtr = s.freeCtr := rfl
@[simp] theorem State.setEeprom_bus (s : State) (v : Eeprom) : (s.setEeprom v).bus = s.bus := rfl

/-! ### `State.bumpFree` -/

@[simp] theorem State.bumpFree_a (s : State) : (s.bumpFree).a = s.a := rfl
@[simp] theorem State.bumpFree_x (s : State) : (s.bumpFree).x = s.x := rfl
@[simp] theorem State.bumpFree_y (s : State) : (s.bumpFree).y = s.y := rfl
@[simp] theorem State.bumpFree_sp (s : State) : (s.bumpFree).sp = s.sp := rfl
@[simp] theorem State.bumpFree_pc (s : State) : (s.bumpFree).pc = s.pc := rfl
@[simp] theorem State.bumpFree_p (s : State) : (s.bumpFree).p = s.p := rfl
@[simp] theorem State.bumpFree_cyc (s : State) : (s.bumpFree).cyc = s.cyc := rfl
@[simp] theorem State.bumpFree_run (s : State) : (s.bumpFree).run = s.run := rfl
@[simp] theorem State.bumpFree_irqLine (s : State) : (s.bumpFree).irqLine = s.irqLine := rfl
@[simp] theorem State.bumpFree_nmiLine (s : State) : (s.bumpFree).nmiLine = s.nmiLine := rfl
@[simp] theorem State.bumpFree_nmiPending (s : State) : (s.bumpFree).nmiPending = s.nmiPending := rfl
@[simp] theorem State.bumpFree_mapctl (s : State) : (s.bumpFree).mapctl = s.mapctl := rfl
@[simp] theorem State.bumpFree_ram (s : State) : (s.bumpFree).ram = s.ram := rfl
@[simp] theorem State.bumpFree_timers (s : State) : (s.bumpFree).timers = s.timers := rfl
@[simp] theorem State.bumpFree_pending (s : State) : (s.bumpFree).pending = s.pending := rfl
@[simp] theorem State.bumpFree_video (s : State) : (s.bumpFree).video = s.video := rfl
@[simp] theorem State.bumpFree_suzy (s : State) : (s.bumpFree).suzy = s.suzy := rfl
@[simp] theorem State.bumpFree_audio (s : State) : (s.bumpFree).audio = s.audio := rfl
@[simp] theorem State.bumpFree_cart (s : State) : (s.bumpFree).cart = s.cart := rfl
@[simp] theorem State.bumpFree_eeprom (s : State) : (s.bumpFree).eeprom = s.eeprom := rfl
@[simp] theorem State.bumpFree_params (s : State) : (s.bumpFree).params = s.params := rfl
@[simp] theorem State.bumpFree_freeCtr (s : State) : (s.bumpFree).freeCtr = s.freeCtr + 1 := rfl
@[simp] theorem State.bumpFree_bus (s : State) : (s.bumpFree).bus = s.bus := rfl

/-! ### `State.cycle` -/

@[simp] theorem State.cycle_a (s : State) (e : BusEvent) : (s.cycle e).a = s.a := rfl
@[simp] theorem State.cycle_x (s : State) (e : BusEvent) : (s.cycle e).x = s.x := rfl
@[simp] theorem State.cycle_y (s : State) (e : BusEvent) : (s.cycle e).y = s.y := rfl
@[simp] theorem State.cycle_sp (s : State) (e : BusEvent) : (s.cycle e).sp = s.sp := rfl
@[simp] theorem State.cycle_pc (s : State) (e : BusEvent) : (s.cycle e).pc = s.pc := rfl
@[simp] theorem State.cycle_p (s : State) (e : BusEvent) : (s.cycle e).p = s.p := rfl
@[simp] theorem State.cycle_cyc (s : State) (e : BusEvent) : (s.cycle e).cyc = s.cyc + 1 := rfl
@[simp] theorem State.cycle_run (s : State) (e : BusEvent) : (s.cycle e).run = s.run := rfl
@[simp] theorem State.cycle_irqLine (s : State) (e : BusEvent) : (s.cycle e).irqLine = s.irqLine := rfl
@[simp] theorem State.cycle_nmiLine (s : State) (e : BusEvent) : (s.cycle e).nmiLine = s.nmiLine := rfl
@[simp] theorem State.cycle_nmiPending (s : State) (e : BusEvent) : (s.cycle e).nmiPending = s.nmiPending := rfl
@[simp] theorem State.cycle_mapctl (s : State) (e : BusEvent) : (s.cycle e).mapctl = s.mapctl := rfl
@[simp] theorem State.cycle_ram (s : State) (e : BusEvent) : (s.cycle e).ram = s.ram := rfl
@[simp] theorem State.cycle_timers (s : State) (e : BusEvent) : (s.cycle e).timers = s.timers := rfl
@[simp] theorem State.cycle_pending (s : State) (e : BusEvent) : (s.cycle e).pending = s.pending := rfl
@[simp] theorem State.cycle_video (s : State) (e : BusEvent) : (s.cycle e).video = s.video := rfl
@[simp] theorem State.cycle_suzy (s : State) (e : BusEvent) : (s.cycle e).suzy = s.suzy := rfl
@[simp] theorem State.cycle_audio (s : State) (e : BusEvent) : (s.cycle e).audio = s.audio := rfl
@[simp] theorem State.cycle_cart (s : State) (e : BusEvent) : (s.cycle e).cart = s.cart := rfl
@[simp] theorem State.cycle_eeprom (s : State) (e : BusEvent) : (s.cycle e).eeprom = s.eeprom := rfl
@[simp] theorem State.cycle_params (s : State) (e : BusEvent) : (s.cycle e).params = s.params := rfl
@[simp] theorem State.cycle_freeCtr (s : State) (e : BusEvent) : (s.cycle e).freeCtr = s.freeCtr := rfl
@[simp] theorem State.cycle_bus (s : State) (e : BusEvent) : (s.cycle e).bus = e :: s.bus := rfl

end Sys2Proof.Machine
end

