-- ==== Sys2Proof/Laws/Bus.lean ====
section
/-! SUPPORT. What a bus access can change, once: a read touches the cycle count, the event record and the cartridge's counter
only; which region answers where; a write to RAM, to `MAPCTL` and to a ROM window. -/

namespace Sys2Proof.Machine

/-! ### Addresses -/

@[simp] theorem hiByte_pair (h l : Byte) : hiByte (pair h l) = h := by
  apply BitVec.eq_of_getLsbD_eq
  intro i hi
  simp only [hiByte, pair, BitVec.getLsbD_setWidth, BitVec.getLsbD_ushiftRight, BitVec.getLsbD_append]
  have : ¬ 8 + i < 8 := by omega
  simp [this, hi]

@[simp] theorem loByte_pair (h l : Byte) : loByte (pair h l) = l := by
  apply BitVec.eq_of_getLsbD_eq
  intro i hi
  simp only [loByte, pair, BitVec.getLsbD_setWidth, BitVec.getLsbD_append]
  simp [hi]

@[simp] theorem pair_hi_lo (a : Addr) : pair (hiByte a) (loByte a) = a := by
  apply BitVec.eq_of_getLsbD_eq
  intro i hi
  simp only [hiByte, loByte, pair, BitVec.getLsbD_append, BitVec.getLsbD_setWidth, BitVec.getLsbD_ushiftRight]
  by_cases h : i < 8
  · simp [h]
  · have h1 : i - 8 < 8 := by omega
    have h2 : 8 + (i - 8) = i := by omega
    simp [h, h1, h2]

theorem pair_injective {h l h' l' : Byte} (e : pair h l = pair h' l') : h = h' ∧ l = l' := by
  have h1 := congrArg hiByte e
  have h2 := congrArg loByte e
  simpa using And.intro h1 h2

@[simp] theorem stackAddr_inj (s t : Byte) : stackAddr s = stackAddr t ↔ s = t :=
  ⟨fun e => (pair_injective e).2, fun e => e ▸ rfl⟩

@[simp] theorem zeroPage_inj (s t : Byte) : zeroPage s = zeroPage t ↔ s = t :=
  ⟨fun e => (pair_injective e).2, fun e => e ▸ rfl⟩

/-- Below the windows everything is RAM (R51). -/
theorem region_low {m : Byte} {a : Addr} (h : a.toNat < 0xFC00) : region m a = .ram := by
  have h9 : a ≠ 0xFFF9 := by rintro rfl; simp at h
  have hC : hiByte a ≠ 0xFC := by
    intro e
    have := congrArg BitVec.toNat e
    simp [hiByte, Nat.shiftRight_eq_div_pow] at this
    omega
  have hD : hiByte a ≠ 0xFD := by
    intro e
    have := congrArg BitVec.toNat e
    simp [hiByte, Nat.shiftRight_eq_div_pow] at this
    omega
  have hE : ¬ 0xFE00 ≤ a.toNat := by omega
  have hF : ¬ 0xFFFA ≤ a.toNat := by omega
  unfold region
  rw [if_neg h9, if_neg (fun e => hC e.1), if_neg (fun e => hD e.1), if_neg (fun e => hE e.1), if_neg (fun e => hF e.1)]

theorem pair_toNat (h l : Byte) : (pair h l).toNat = h.toNat * 256 + l.toNat := by
  have := l.isLt
  rw [pair, BitVec.toNat_append, Nat.shiftLeft_eq, Nat.mul_comm, ← Nat.two_pow_add_eq_or_of_lt this]

@[simp] theorem region_stackAddr (m sp : Byte) : region m (stackAddr sp) = .ram :=
  region_low (by have := sp.isLt; simp only [stackAddr, pair_toNat]; simp; omega)

@[simp] theorem region_zeroPage (m z : Byte) : region m (zeroPage z) = .ram :=
  region_low (by have := z.isLt; simp only [zeroPage, pair_toNat]; simp; omega)

@[simp] theorem isPort_stackAddr (m sp : Byte) : isPort m (stackAddr sp) = false := by simp [isPort]

@[simp] theorem isPort_zeroPage (m z : Byte) : isPort m (zeroPage z) = false := by simp [isPort]

/-! ### Reads -/

/-- A read moves the cartridge's counter if it hits a data port, and does nothing else (R58, R380). -/
theorem readEffect_eq (a : Addr) (s : State) : readEffect a s = if isPort s.mapctl a then cartAdvance s else s := by
  have key : ∀ off : Byte,
      (match suzyReg off with | some (.rcart _) => true | _ => false) = (off == 0xB2 || off == 0xB3) := by decide
  unfold readEffect isPort
  cases hr : region s.mapctl a with
  | suzy off =>
    simp only [suzyReadEffect, ← key off]
    cases suzyReg off with
    | none => simp
    | some r => cases r <;> simp [suzyRegReadEffect]
  | mapctl => simp
  | mikey off => simp
  | rom off => simp
  | ram => simp

/-- The cartridge after a read. -/
theorem afterRead_cart (k : ReadKind) (a : Addr) (s : State) :
    (afterRead k a s).cart =
      { s.cart with addrCnt := s.cart.addrCnt + BitVec.ofNat 20 (portReads s.mapctl [.read k a (peek s a)]) } := by
  simp only [afterRead, readEffect_eq, State.cycle_mapctl, portReads, List.countP_singleton, isPortRead]
  by_cases h : isPort s.mapctl a = true <;> simp [h, cartAdvance]

@[simp] theorem afterRead_cyc (k : ReadKind) (a : Addr) (s : State) : (afterRead k a s).cyc = s.cyc + 1 := by
  simp only [afterRead, readEffect_eq]
  split <;> rfl

@[simp] theorem afterRead_bus (k : ReadKind) (a : Addr) (s : State) :
    (afterRead k a s).bus = .read k a (peek s a) :: s.bus := by
  simp only [afterRead, readEffect_eq]
  split <;> rfl

@[simp] theorem afterRead_a (k : ReadKind) (a : Addr) (s : State) : (afterRead k a s).a = s.a := by
  simp only [afterRead, readEffect_eq]
  split <;> rfl

@[simp] theorem afterRead_x (k : ReadKind) (a : Addr) (s : State) : (afterRead k a s).x = s.x := by
  simp only [afterRead, readEffect_eq]
  split <;> rfl

@[simp] theorem afterRead_y (k : ReadKind) (a : Addr) (s : State) : (afterRead k a s).y = s.y := by
  simp only [afterRead, readEffect_eq]
  split <;> rfl

@[simp] theorem afterRead_sp (k : ReadKind) (a : Addr) (s : State) : (afterRead k a s).sp = s.sp := by
  simp only [afterRead, readEffect_eq]
  split <;> rfl

@[simp] theorem afterRead_pc (k : ReadKind) (a : Addr) (s : State) : (afterRead k a s).pc = s.pc := by
  simp only [afterRead, readEffect_eq]
  split <;> rfl

@[simp] theorem afterRead_p (k : ReadKind) (a : Addr) (s : State) : (afterRead k a s).p = s.p := by
  simp only [afterRead, readEffect_eq]
  split <;> rfl

@[simp] theorem afterRead_run (k : ReadKind) (a : Addr) (s : State) : (afterRead k a s).run = s.run := by
  simp only [afterRead, readEffect_eq]
  split <;> rfl

@[simp] theorem afterRead_irqLine (k : ReadKind) (a : Addr) (s : State) : (afterRead k a s).irqLine = s.irqLine := by
  simp only [afterRead, readEffect_eq]
  split <;> rfl

@[simp] theorem afterRead_nmiLine (k : ReadKind) (a : Addr) (s : State) : (afterRead k a s).nmiLine = s.nmiLine := by
  simp only [afterRead, readEffect_eq]
  split <;> rfl

@[simp] theorem afterRead_nmiPending (k : ReadKind) (a : Addr) (s : State) : (afterRead k a s).nmiPending = s.nmiPending := by
  simp only [afterRead, readEffect_eq]
  split <;> rfl

@[simp] theorem afterRead_mapctl (k : ReadKind) (a : Addr) (s : State) : (afterRead k a s).mapctl = s.mapctl := by
  simp only [afterRead, readEffect_eq]
  split <;> rfl

@[simp] theorem afterRead_ram (k : ReadKind) (a : Addr) (s : State) : (afterRead k a s).ram = s.ram := by
  simp only [afterRead, readEffect_eq]
  split <;> rfl

@[simp] theorem afterRead_timers (k : ReadKind) (a : Addr) (s : State) : (afterRead k a s).timers = s.timers := by
  simp only [afterRead, readEffect_eq]
  split <;> rfl

@[simp] theorem afterRead_pending (k : ReadKind) (a : Addr) (s : State) : (afterRead k a s).pending = s.pending := by
  simp only [afterRead, readEffect_eq]
  split <;> rfl

@[simp] theorem afterRead_video (k : ReadKind) (a : Addr) (s : State) : (afterRead k a s).video = s.video := by
  simp only [afterRead, readEffect_eq]
  split <;> rfl

@[simp] theorem afterRead_suzy (k : ReadKind) (a : Addr) (s : State) : (afterRead k a s).suzy = s.suzy := by
  simp only [afterRead, readEffect_eq]
  split <;> rfl

@[simp] theorem afterRead_audio (k : ReadKind) (a : Addr) (s : State) : (afterRead k a s).audio = s.audio := by
  simp only [afterRead, readEffect_eq]
  split <;> rfl

@[simp] theorem afterRead_eeprom (k : ReadKind) (a : Addr) (s : State) : (afterRead k a s).eeprom = s.eeprom := by
  simp only [afterRead, readEffect_eq]
  split <;> rfl

@[simp] theorem afterRead_params (k : ReadKind) (a : Addr) (s : State) : (afterRead k a s).params = s.params := by
  simp only [afterRead, readEffect_eq]
  split <;> rfl

@[simp] theorem afterRead_freeCtr (k : ReadKind) (a : Addr) (s : State) : (afterRead k a s).freeCtr = s.freeCtr := by
  simp only [afterRead, readEffect_eq]
  split <;> rfl

/-! ### Other primitive actions -/

/-- A write to RAM (R57). -/
theorem memWrite_ram {k : WriteKind} {a : Addr} {v : Byte} {s : State} (h : region s.mapctl a = .ram) :
    memWrite k a v s = (s.cycle (.write k a v)).writeRam a v := by
  simp [memWrite, busStore, h]

/-- A write to `MAPCTL` (R53, R57). -/
theorem memWrite_mapctl {k : WriteKind} {a : Addr} {v : Byte} {s : State} (h : region s.mapctl a = .mapctl) :
    memWrite k a v s = { s.cycle (.write k a v) with mapctl := v } := by
  simp [memWrite, busStore, h]

/-- A write to a visible Mikey address is one cycle and the register's own action (R57, R340). -/
theorem memWrite_mikey {k : WriteKind} {a : Addr} {v : Byte} {s : State} {off : Byte} (h : region s.mapctl a = .mikey off) :
    memWrite k a v s = mikeyWrite off v (s.cycle (.write k a v)) := by
  have h' : region (s.cycle (.write k a v)).mapctl a = .mikey off := h
  simp only [memWrite, busStore, h']

/-- A write to a visible Suzy address is one cycle and the register's own action (R57, R360). -/
theorem memWrite_suzy {k : WriteKind} {a : Addr} {v : Byte} {s : State} {off : Byte} (h : region s.mapctl a = .suzy off) :
    memWrite k a v s = suzyWrite off v (s.cycle (.write k a v)) := by
  have h' : region (s.cycle (.write k a v)).mapctl a = .suzy off := h
  simp only [memWrite, busStore, h']

/-- A write to a visible ROM window (R54, R57). -/
theorem memWrite_rom {k : WriteKind} {a : Addr} {v : Byte} {s : State} {off : Nat} (h : region s.mapctl a = .rom off) :
    memWrite k a v s =
      if s.params.romWriteThrough then (s.cycle (.write k a v)).writeRam a v else s.cycle (.write k a v) := by
  by_cases hw : s.params.romWriteThrough = true <;> simp [memWrite, busStore, h, hw]

/-- A push (R22). -/
theorem push_eq (v : Byte) (s : State) :
    push v s = ((s.cycle (.write .stackWrite (stackAddr s.sp) v)).writeRam (stackAddr s.sp) v).setSp (s.sp - 1) := by
  simp [push, memWrite_ram]

/-- A read changes no byte that is not behind a data port. -/
theorem peek_congr {s t : State} {a : Addr} (hm : t.mapctl = s.mapctl) (hr : Memory.read t.ram a = Memory.read s.ram a) (ht : t.timers = s.timers)
    (hp : t.pending = s.pending) (hv : t.video = s.video) (hz : t.suzy = s.suzy) (ha : t.audio = s.audio)
    (hq : t.params = s.params) (hport : isPort s.mapctl a = false) : peek t a = peek s a := by
  unfold peek
  rw [hm]
  unfold isPort at hport
  split
  · rfl
  · rename_i off h
    rw [h] at hport
    simp only [suzyRead]
    have key : ∀ off : Byte, (off == 0xB2 || off == 0xB3) = false →
        (match suzyReg off with | some (.rcart _) => true | _ => false) = false := by decide
    have hk := key off hport
    cases hs : suzyReg off with
    | none => rfl
    | some r => cases r <;> simp_all [suzyRegValue]
  · rename_i off h
    simp only [mikeyRead]
    cases mikeyReg off with
    | none => rfl
    | some r => cases r <;> simp [mikeyRegValue, ht, hp, hv, ha]
  · simp [State.rom, hq]
  · exact hr

/-- A read elsewhere does not change what an address answers. -/
theorem peek_afterRead {s : State} {a : Addr} (k : ReadKind) (b : Addr) (h : isPort s.mapctl a = false) :
    peek (afterRead k b s) a = peek s a :=
  peek_congr (by simp) (by simp) (by simp) (by simp) (by simp) (by simp) (by simp) (by simp) h

/-- RAM answers where no window is visible. -/
theorem peek_ram {s : State} {a : Addr} (h : region s.mapctl a = .ram) : peek s a = Memory.read s.ram a := by
  simp [peek, h]

@[simp] theorem peek_stackAddr (s : State) (sp : Byte) : peek s (stackAddr sp) = Memory.read s.ram (stackAddr sp) :=
  peek_ram (by simp)

@[simp] theorem peek_zeroPage (s : State) (z : Byte) : peek s (zeroPage z) = Memory.read s.ram (zeroPage z) :=
  peek_ram (by simp)

end Sys2Proof.Machine
end

