-- ==== Sys2Proof/Laws/Frame.lean ====
section
/-! SUPPORT. How a frame grows action by action, and what the shared operations do to a frame: one lemma for each. -/

namespace Sys2Proof.Machine

variable {n : Nat} {ws : List BusEvent} {mem : Addr → Byte} {s t : State}

theorem SameDevices.refl (s : State) : SameDevices s s := ⟨rfl, rfl, rfl, rfl, rfl, rfl, rfl, rfl, rfl, rfl, rfl, rfl⟩

/-- No cycle, no change. -/
theorem Quiet.refl (s : State) : Quiet 0 s s :=
  ⟨rfl, ⟨[], rfl, rfl, rfl, by simp [portReads]⟩, fun _ => rfl, id, SameDevices.refl s⟩

/-- A read adds a cycle. -/
theorem Frame.afterRead (h : Frame n ws mem s t) (k : ReadKind) (a : Addr) : Frame (n + 1) ws mem s (afterRead k a t) := by
  obtain ⟨hc, ⟨ev, hl, hf, hb, hcart⟩, hm, hw, hd⟩ := h
  refine ⟨by simp [hc]; omega, ⟨.read k a (peek t a) :: ev, by simp [hl], by simp [BusEvent.isWrite, hf], by simp [hb], ?_⟩,
    by simpa using hm, by simpa using hw,
    ⟨by simpa using hd.irqLine, by simpa using hd.nmiLine, by simpa using hd.nmiPending, by simpa using hd.mapctl,
      by simpa using hd.timers, by simpa using hd.pending, by simpa using hd.video, by simpa using hd.suzy,
      by simpa using hd.audio, by simpa using hd.eeprom, by simpa using hd.params, by simpa using hd.freeCtr⟩⟩
  rw [afterRead_cart, hcart, hd.mapctl]
  simp only [portReads, List.countP_cons, List.countP_nil, Nat.zero_add, BitVec.add_assoc, ← BitVec.ofNat_add]

/-- An idle cycle. -/
theorem Frame.idle (h : Frame n ws mem s t) : Frame (n + 1) ws mem s (idle t) := by
  obtain ⟨hc, ⟨ev, hl, hf, hb, hcart⟩, hm, hw, hd⟩ := h
  refine ⟨by simp [Machine.idle, hc]; omega, ⟨.idle :: ev, by simp [hl], by simp [BusEvent.isWrite, hf],
    by simp [Machine.idle, hb], ?_⟩, hm, hw, ⟨hd.1, hd.2, hd.3, hd.4, hd.5, hd.6, hd.7, hd.8, hd.9, hd.10, hd.11, hd.12⟩⟩
  simpa [Machine.idle, portReads, isPortRead] using hcart

/-- Any number of idle cycles. -/
theorem Frame.idles (h : Frame n ws mem s t) (k : Nat) : Frame (n + k) ws mem s (Machine.idle^[k] t) := by
  induction k generalizing n t with
  | zero => exact h
  | succ k ih =>
    have := ih h.idle
    rw [Function.iterate_succ_apply]
    rwa [Nat.add_right_comm, Nat.add_assoc] at this

theorem Frame.setA (h : Frame n ws mem s t) (v : Byte) : Frame n ws mem s (t.setA v) :=
  ⟨h.1, h.2, h.3, h.4, ⟨h.5.1, h.5.2, h.5.3, h.5.4, h.5.5, h.5.6, h.5.7, h.5.8, h.5.9, h.5.10, h.5.11, h.5.12⟩⟩

theorem Frame.setX (h : Frame n ws mem s t) (v : Byte) : Frame n ws mem s (t.setX v) :=
  ⟨h.1, h.2, h.3, h.4, ⟨h.5.1, h.5.2, h.5.3, h.5.4, h.5.5, h.5.6, h.5.7, h.5.8, h.5.9, h.5.10, h.5.11, h.5.12⟩⟩

theorem Frame.setY (h : Frame n ws mem s t) (v : Byte) : Frame n ws mem s (t.setY v) :=
  ⟨h.1, h.2, h.3, h.4, ⟨h.5.1, h.5.2, h.5.3, h.5.4, h.5.5, h.5.6, h.5.7, h.5.8, h.5.9, h.5.10, h.5.11, h.5.12⟩⟩

theorem Frame.setSp (h : Frame n ws mem s t) (v : Byte) : Frame n ws mem s (t.setSp v) :=
  ⟨h.1, h.2, h.3, h.4, ⟨h.5.1, h.5.2, h.5.3, h.5.4, h.5.5, h.5.6, h.5.7, h.5.8, h.5.9, h.5.10, h.5.11, h.5.12⟩⟩

theorem Frame.setPc (h : Frame n ws mem s t) (v : Addr) : Frame n ws mem s (t.setPc v) :=
  ⟨h.1, h.2, h.3, h.4, ⟨h.5.1, h.5.2, h.5.3, h.5.4, h.5.5, h.5.6, h.5.7, h.5.8, h.5.9, h.5.10, h.5.11, h.5.12⟩⟩

theorem Frame.setP (h : Frame n ws mem s t) (f : Flags) : Frame n ws mem s (t.setP f) :=
  ⟨h.1, h.2, h.3, h.4, ⟨h.5.1, h.5.2, h.5.3, h.5.4, h.5.5, h.5.6, h.5.7, h.5.8, h.5.9, h.5.10, h.5.11, h.5.12⟩⟩

theorem Frame.setRun (h : Frame n ws mem s t) (r : RunState) : Frame n ws mem s (t.setRun r) :=
  ⟨h.1, h.2, h.3, h.4, ⟨h.5.1, h.5.2, h.5.3, h.5.4, h.5.5, h.5.6, h.5.7, h.5.8, h.5.9, h.5.10, h.5.11, h.5.12⟩⟩

theorem Frame.setNZ (h : Frame n ws mem s t) (v : Byte) : Frame n ws mem s (t.setNZ v) := h.setP _

/-- A write that lands in RAM. -/
theorem Frame.memWrite (h : Frame n ws mem s t) (hwf : Memory.wf s.ram = true) (k : WriteKind) {a : Addr} (v : Byte)
    (ha : region s.mapctl a = .ram) :
    Frame (n + 1) (.write k a v :: ws) (fun b => if b = a then v else mem b) s (memWrite k a v t) := by
  obtain ⟨hc, ⟨ev, hl, hf, hb, hcart⟩, hm, hw, hd⟩ := h
  rw [memWrite_ram (by rwa [hd.mapctl])]
  refine ⟨by simp [State.writeRam, hc]; omega, ⟨.write k a v :: ev, by simp [hl], by rw [List.filter_cons_of_pos rfl, hf],
    by simp [State.writeRam, hb], ?_⟩, fun b => ?_, fun _ => ?_,
    ⟨hd.1, hd.2, hd.3, hd.4, hd.5, hd.6, hd.7, hd.8, hd.9, hd.10, hd.11, hd.12⟩⟩
  · simpa [State.writeRam, portReads, isPortRead] using hcart
  · simp only [State.writeRam_ram, State.cycle_ram, Memory.read_write (hw hwf), hm]
  · simpa using Memory.write_wf (hw hwf) a v

/-- A push. -/
theorem Frame.push (h : Frame n ws mem s t) (hwf : Memory.wf s.ram = true) (v : Byte) :
    Frame (n + 1) (.write .stackWrite (stackAddr t.sp) v :: ws) (fun b => if b = stackAddr t.sp then v else mem b) s
      (Machine.push v t) := (h.memWrite hwf .stackWrite v (region_stackAddr _ _)).setSp _

/-- After a frame an address whose RAM byte stayed answers as before, unless it is a data port. -/
theorem Frame.peek (h : Frame n ws mem s t) {a : Addr} (hp : isPort s.mapctl a = false)
    (hm : mem a = Memory.read s.ram a) : Machine.peek t a = Machine.peek s a :=
  peek_congr h.devices.mapctl ((h.memory a).trans hm) h.devices.timers h.devices.pending h.devices.video h.devices.suzy
    h.devices.audio h.devices.params hp

/-! ### The core registers after the primitive actions -/

/-- The same core registers: what a read leaves. -/
@[simp] theorem afterRead_core (k : ReadKind) (a : Addr) (s : State) : (Machine.afterRead k a s).core = s.core := by
  simp [State.core]

@[simp] theorem idle_core (s : State) : (Machine.idle s).core = s.core := rfl

@[simp] theorem idles_core (k : Nat) (s : State) : (Machine.idle^[k] s).core = s.core := by
  induction k generalizing s with
  | zero => rfl
  | succ k ih => rw [Function.iterate_succ_apply, ih, idle_core]

@[simp] theorem setA_core (s : State) (v : Byte) : (s.setA v).core = { s.core with a := v } := rfl
@[simp] theorem setX_core (s : State) (v : Byte) : (s.setX v).core = { s.core with x := v } := rfl
@[simp] theorem setY_core (s : State) (v : Byte) : (s.setY v).core = { s.core with y := v } := rfl
@[simp] theorem setSp_core (s : State) (v : Byte) : (s.setSp v).core = { s.core with sp := v } := rfl
@[simp] theorem setPc_core (s : State) (v : Addr) : (s.setPc v).core = { s.core with pc := v } := rfl
@[simp] theorem setP_core (s : State) (f : Flags) : (s.setP f).core = { s.core with p := f } := rfl
@[simp] theorem setRun_core (s : State) (r : RunState) : (s.setRun r).core = { s.core with run := r } := rfl

@[simp] theorem setNZ_core (s : State) (v : Byte) : (s.setNZ v).core = { s.core with p := s.p.setNZ v } := rfl

@[simp] theorem push_core (v : Byte) (s : State) : (Machine.push v s).core = { s.core with sp := s.sp - 1 } := by
  rw [push_eq]; rfl

theorem core_a (s : State) : s.core.a = s.a := rfl
theorem core_x (s : State) : s.core.x = s.x := rfl
theorem core_y (s : State) : s.core.y = s.y := rfl
theorem core_sp (s : State) : s.core.sp = s.sp := rfl
theorem core_pc (s : State) : s.core.pc = s.pc := rfl
theorem core_p (s : State) : s.core.p = s.p := rfl

/-! ### Fetches -/

theorem Frame.fetchOpcode (h : Frame n ws mem s t) : Frame (n + 1) ws mem s (fetchOpcode t) := (h.afterRead _ _).setPc _

theorem Frame.fetchOperand (h : Frame n ws mem s t) : Frame (n + 1) ws mem s (fetchOperand t) := (h.afterRead _ _).setPc _

@[simp] theorem fetchOpcode_core (s : State) : (Machine.fetchOpcode s).core = { s.core with pc := s.pc + 1 } := by
  simp [Machine.fetchOpcode]

@[simp] theorem fetchOperand_core (s : State) : (Machine.fetchOperand s).core = { s.core with pc := s.pc + 1 } := by
  simp [Machine.fetchOperand]

theorem Frame.implied (h : Frame n ws mem s t) : Frame (n + 1) ws mem s (implied t) := h.afterRead _ _

@[simp] theorem implied_core (s : State) : (Machine.implied s).core = s.core := by simp [Machine.implied, dummyRead]

end Sys2Proof.Machine
end

