-- ==== Sys2Proof/Laws/Operands.lean ====
section
/-! SUPPORT. What resolving an operand does, once: the address is the spec's, the accesses are reads, only `PC` moves among the
core's registers. -/

namespace Sys2Proof.Machine

variable {n : Nat} {ws : List BusEvent} {mem : Addr → Byte} {s t : State}

/-! ### Pointers and dummy reads -/

theorem readPointer_fst (z : Byte) (s : State) : (readPointer z s).1 = zeroPagePointer s z := by
  simp [readPointer, memRead, zeroPagePointer]

@[simp] theorem readPointer_core (z : Byte) (s : State) : (readPointer z s).2.core = s.core := by
  simp [readPointer, memRead]

theorem Frame.readPointer (h : Frame n ws mem s t) (z : Byte) : Frame (n + 2) ws mem s (readPointer z t).2 :=
  (h.afterRead _ _).afterRead _ _

@[simp] theorem readPointer16_core (w : Addr) (s : State) : (readPointer16 w s).2.core = s.core := by
  simp [readPointer16, memRead]

theorem Frame.readPointer16 (h : Frame n ws mem s t) (w : Addr) : Frame (n + 2) ws mem s (readPointer16 w t).2 :=
  (h.afterRead _ _).afterRead _ _

/-- A pointer whose two bytes are not behind a data port. -/
theorem readPointer16_fst {w : Addr} {s : State} (h1 : isPort s.mapctl (w + 1) = false) :
    (readPointer16 w s).1 = pair (peek s (w + 1)) (peek s w) := by
  simp only [readPointer16, memRead, peek_afterRead _ _ h1]

@[simp] theorem indexDummy_core (a : Addr) (s : State) : (indexDummy a s).core = s.core := by
  simp [indexDummy, dummyRead]

theorem Frame.indexDummy (h : Frame n ws mem s t) (a : Addr) : Frame (n + 1) ws mem s (indexDummy a t) := h.afterRead _ _

@[simp] theorem pageDummy_core (cls : AccessClass) (w : Addr) (i : Byte) (s : State) :
    (pageDummy cls w i s).core = s.core := by
  unfold pageDummy
  split <;> simp

/-- How many cycles the page-crossing dummy read takes. -/
def pageDummyCycles (cls : AccessClass) (w : Addr) (i : Byte) : Nat := if cls != .read || crosses w i then 1 else 0

theorem Frame.pageDummy (h : Frame n ws mem s t) (cls : AccessClass) (w : Addr) (i : Byte) :
    Frame (n + pageDummyCycles cls w i) ws mem s (pageDummy cls w i t) := by
  unfold Machine.pageDummy pageDummyCycles
  split
  · exact h.indexDummy _
  · exact h

/-! ### Fields a core register view determines -/

theorem core_eq_x {s t : State} (h : t.core = s.core) : t.x = s.x := congrArg CoreRegs.x h
theorem core_eq_y {s t : State} (h : t.core = s.core) : t.y = s.y := congrArg CoreRegs.y h

@[simp] theorem fetchOpcode_x (s : State) : (fetchOpcode s).x = s.x := by simp [fetchOpcode]
@[simp] theorem fetchOpcode_y (s : State) : (fetchOpcode s).y = s.y := by simp [fetchOpcode]
@[simp] theorem fetchOpcode_a (s : State) : (fetchOpcode s).a = s.a := by simp [fetchOpcode]
@[simp] theorem fetchOpcode_sp (s : State) : (fetchOpcode s).sp = s.sp := by simp [fetchOpcode]
@[simp] theorem fetchOpcode_p (s : State) : (fetchOpcode s).p = s.p := by simp [fetchOpcode]
@[simp] theorem fetchOpcode_pc (s : State) : (fetchOpcode s).pc = s.pc + 1 := rfl
@[simp] theorem fetchOpcode_ram (s : State) : (fetchOpcode s).ram = s.ram := by simp [fetchOpcode]
@[simp] theorem fetchOpcode_mapctl (s : State) : (fetchOpcode s).mapctl = s.mapctl := by simp [fetchOpcode]
@[simp] theorem fetchOpcode_params (s : State) : (fetchOpcode s).params = s.params := by simp [fetchOpcode]
@[simp] theorem fetchOpcode_freeCtr (s : State) : (fetchOpcode s).freeCtr = s.freeCtr := by simp [fetchOpcode]

@[simp] theorem fetchOperand_x (s : State) : (fetchOperand s).x = s.x := by simp [fetchOperand]
@[simp] theorem fetchOperand_y (s : State) : (fetchOperand s).y = s.y := by simp [fetchOperand]
@[simp] theorem fetchOperand_a (s : State) : (fetchOperand s).a = s.a := by simp [fetchOperand]
@[simp] theorem fetchOperand_sp (s : State) : (fetchOperand s).sp = s.sp := by simp [fetchOperand]
@[simp] theorem fetchOperand_p (s : State) : (fetchOperand s).p = s.p := by simp [fetchOperand]
@[simp] theorem fetchOperand_pc (s : State) : (fetchOperand s).pc = s.pc + 1 := rfl
@[simp] theorem fetchOperand_ram (s : State) : (fetchOperand s).ram = s.ram := by simp [fetchOperand]
@[simp] theorem fetchOperand_mapctl (s : State) : (fetchOperand s).mapctl = s.mapctl := by simp [fetchOperand]
@[simp] theorem fetchOperand_params (s : State) : (fetchOperand s).params = s.params := by simp [fetchOperand]
@[simp] theorem fetchOperand_freeCtr (s : State) : (fetchOperand s).freeCtr = s.freeCtr := by simp [fetchOperand]

theorem pcAfter_two (s : State) : pcAfter s 2 = s.pc + 1 + 1 := by simp only [pcAfter]; bv_omega
theorem pcAfter_three (s : State) : pcAfter s 3 = s.pc + 1 + 1 + 1 := by simp only [pcAfter]; bv_omega

/-! ### Resolving -/

/-- The data accesses of a class, after the address is resolved (R117). -/
def dataCycles : AccessClass → Nat
  | .read => 1
  | .write => 1
  | .modify => 3

/-- The address is the spec's (R104 to R112). -/
theorem resolve_fst (cls : AccessClass) (m : MemMode) (s : State) :
    (resolve cls m (fetchOpcode s)).1 = effectiveAddress m s := by
  cases m <;> simp [resolve, effectiveAddress, absIndexed, readPointer_fst, zeroPagePointer, indexDummy, dummyRead]

/-- Resolving reads `PC` past the operand bytes and changes no other register. -/
theorem resolve_core (cls : AccessClass) (m : MemMode) (s : State) :
    (resolve cls m (fetchOpcode s)).2.core = { s.core with pc := pcAfter s (1 + m.operandBytes) } := by
  cases m <;>
    simp [resolve, absIndexed, MemMode.operandBytes, pcAfter_two, pcAfter_three]

/-- Resolving takes the cycles of R117's table but for the data accesses, all of them reads. -/
theorem resolve_quiet (cls : AccessClass) (m : MemMode) (s : State) :
    Quiet (memCycles cls m s - dataCycles cls) s (resolve cls m (fetchOpcode s)).2 := by
  have h0 : Quiet 1 s (fetchOpcode s) := (Quiet.refl s).fetchOpcode
  have h1 : Quiet 2 s (fetchOperand (fetchOpcode s)) := h0.fetchOperand
  have h2 : Quiet 3 s (fetchOperand (fetchOperand (fetchOpcode s))) := h1.fetchOperand
  cases m with
  | zp z => cases cls <;> exact h1
  | zpx z => cases cls <;> exact h1.indexDummy _
  | zpy z => cases cls <;> exact h1.indexDummy _
  | abs w => cases cls <;> exact h2
  | abx w =>
    have h3 := h2.pageDummy cls w s.x
    have e : 3 + pageDummyCycles cls w s.x = memCycles cls (.abx w) s - dataCycles cls := by
      cases cls <;> simp [pageDummyCycles, memCycles, readCycles, writeCycles, dataCycles, pageExtra]
    rw [e] at h3
    simpa [resolve, absIndexed] using h3
  | aby w =>
    have h3 := h2.pageDummy cls w s.y
    have e : 3 + pageDummyCycles cls w s.y = memCycles cls (.aby w) s - dataCycles cls := by
      cases cls <;> simp [pageDummyCycles, memCycles, readCycles, writeCycles, dataCycles, pageExtra]
    rw [e] at h3
    simpa [resolve, absIndexed] using h3
  | izx z => cases cls <;> exact (h1.indexDummy _).readPointer _
  | izy z =>
    have h3 := (h1.readPointer z).pageDummy cls (zeroPagePointer s z) s.y
    have e : 2 + 2 + pageDummyCycles cls (zeroPagePointer s z) s.y = memCycles cls (.izy z) s - dataCycles cls := by
      cases cls <;> simp [pageDummyCycles, memCycles, readCycles, writeCycles, dataCycles, pageExtra]
    rw [e] at h3
    simpa [resolve, readPointer_fst, zeroPagePointer] using h3
  | izp z => cases cls <;> exact h1.readPointer _

theorem dataCycles_le (cls : AccessClass) (m : MemMode) (s : State) : dataCycles cls ≤ memCycles cls m s := by
  cases cls <;> cases m <;> simp [dataCycles, memCycles, readCycles, writeCycles] <;> omega

/-- The length of a class R instruction's operand. -/
theorem operand_mem_length (m : MemMode) : (Operand.mem m).length = 1 + m.operandBytes := rfl

/-- What reading a class R operand leaves: `PC` past the instruction, the cycles of the table, nothing else. -/
theorem readOperand_core (o : Operand) (s : State) :
    (readOperand o (fetchOpcode s)).2.core = { s.core with pc := pcAfter s o.length } := by
  cases o with
  | imm v => simp [readOperand, Operand.length, pcAfter_two]
  | mem m => simp [readOperand, memRead, resolve_core, operand_mem_length]

/-- The frame of reading a class R operand. -/
theorem readOperand_quiet (o : Operand) (s : State) :
    Quiet (operandCycles o s) s (readOperand o (fetchOpcode s)).2 := by
  cases o with
  | imm v => exact (Quiet.refl s).fetchOpcode.fetchOperand
  | mem m =>
    have h := (resolve_quiet .read m s).afterRead .read (resolve .read m (fetchOpcode s)).1
    have := dataCycles_le .read m s
    have e : memCycles .read m s - dataCycles .read + 1 = operandCycles (.mem m) s := by
      simp only [dataCycles, operandCycles] at this ⊢; omega
    rw [e] at h
    exact h

end Sys2Proof.Machine
end

