-- ==== Sys2Proof/Laws/Control.lean ====
section
/-! SUPPORT. What the stack operations, the branches, taking an exception and returning from one do, once for each. -/

namespace Sys2Proof.Machine

variable {n : Nat} {ws : List BusEvent} {mem : Addr → Byte} {s t : State}

/-! ### Stack -/

@[simp] theorem push_p (v : Byte) (s : State) : (push v s).p = s.p := by rw [push_eq]; rfl
@[simp] theorem push_sp (v : Byte) (s : State) : (push v s).sp = s.sp - 1 := by rw [push_eq]; rfl
@[simp] theorem push_pc (v : Byte) (s : State) : (push v s).pc = s.pc := by rw [push_eq]; rfl
@[simp] theorem push_params (v : Byte) (s : State) : (push v s).params = s.params := by rw [push_eq]; rfl
@[simp] theorem push_mapctl (v : Byte) (s : State) : (push v s).mapctl = s.mapctl := by rw [push_eq]; rfl

/-- The byte a pull finds (R22). -/
theorem pull_fst (s : State) : (pull s).1 = Memory.read s.ram (stackAddr (s.sp + 1)) := by
  simp [pull, memRead]

@[simp] theorem pull_core (s : State) : (pull s).2.core = { s.core with sp := s.sp + 1 } := by
  simp [pull, memRead]

@[simp] theorem pull_ram (s : State) : (pull s).2.ram = s.ram := by simp [pull, memRead]
@[simp] theorem pull_sp (s : State) : (pull s).2.sp = s.sp + 1 := by simp [pull, memRead]
@[simp] theorem pull_p (s : State) : (pull s).2.p = s.p := by simp [pull, memRead]

/-- A pull is one read. -/
theorem Frame.pull (h : Frame n ws mem s t) : Frame (n + 1) ws mem s (pull t).2 := (h.setSp _).afterRead _ _

/-- What pulling `PC` leaves in the core (R244, R245). -/
theorem pullPc_core (s : State) :
    (pullPc s).core =
      { s.core with
        sp := s.sp + 1 + 1
        pc := pair (Memory.read s.ram (stackAddr (s.sp + 1 + 1))) (Memory.read s.ram (stackAddr (s.sp + 1))) } := by
  simp [pullPc, pull_fst]

theorem Frame.pullPc (h : Frame n ws mem s t) : Frame (n + 2) ws mem s (pullPc t) := (h.pull.pull).setPc _

/-- What `RTI`'s return leaves in the core (R245, R323). -/
theorem returnFromInterrupt_core (s : State) :
    (returnFromInterrupt s).core =
      { s.core with
        sp := s.sp + 1 + 1 + 1
        p := Flags.setStatus (Memory.read s.ram (stackAddr (s.sp + 1)))
        pc := pair (Memory.read s.ram (stackAddr (s.sp + 1 + 1 + 1))) (Memory.read s.ram (stackAddr (s.sp + 1 + 1))) } := by
  simp [returnFromInterrupt, pullPc_core, pull_fst]

theorem Frame.returnFromInterrupt (h : Frame n ws mem s t) : Frame (n + 3) ws mem s (returnFromInterrupt t) :=
  (h.pull.setP _).pullPc

/-! ### Branches -/

/-- A taken branch moves `PC` and nothing else of the core (R230). -/
theorem takeBranch_core (off : Byte) (s : State) : (takeBranch off s).core = { s.core with pc := relative s.pc off } := by
  unfold takeBranch
  dsimp only
  split <;> simp [dummyRead]

/-- A taken branch is one or two reads (R230). -/
theorem Frame.takeBranch (h : Frame n ws mem s t) (off : Byte) :
    Frame (n + takenExtra true t.pc off) ws mem s (takeBranch off t) := by
  unfold Machine.takeBranch takenExtra
  dsimp only
  simp only [if_true]
  split
  · exact (h.afterRead _ _).setPc _
  · exact ((h.afterRead _ _).afterRead _ _).setPc _

/-- Where a branch leaves `PC` (R230): nothing else of the core changes. -/
theorem branch_core (c : Bool) (off : Byte) (s : State) :
    (branch c off s).core = { s.core with pc := if c then relative (s.pc + 1) off else s.pc + 1 } := by
  cases c <;> simp [branch, takeBranch_core]

/-- A branch is reads: one, and `takenExtra` more (R230). -/
theorem Frame.branch (h : Frame n ws mem s t) (c : Bool) (off : Byte) :
    Frame (n + 1 + takenExtra c (t.pc + 1) off) ws mem s (branch c off t) := by
  cases c with
  | false => exact h.fetchOperand
  | true => exact h.fetchOperand.takeBranch off

/-! ### Exceptions -/

theorem hiByte_toNat (a : Addr) : (hiByte a).toNat = a.toNat / 256 := by
  have := a.isLt
  simp only [hiByte, BitVec.toNat_setWidth, BitVec.toNat_ushiftRight, Nat.shiftRight_eq_div_pow]
  omega

/-- The last six addresses are no data port and no stack address. -/
theorem vector_plain (m : Byte) {v : Addr} (h : 0xFFFA ≤ v.toNat) : isPort m v = false ∧ ∀ sp, v ≠ stackAddr sp := by
  have h1 : hiByte v = 0xFF := by
    apply BitVec.eq_of_toNat_eq
    have := v.isLt
    rw [hiByte_toNat]
    show v.toNat / 256 = 255
    omega
  constructor
  · have h9 : v ≠ 0xFFF9 := by rintro rfl; simp at h
    have hC : ¬ (hiByte v = 0xFC ∧ m.getLsbD 0 = false) := by rw [h1]; simp
    have hD : ¬ (hiByte v = 0xFD ∧ m.getLsbD 1 = false) := by rw [h1]; simp
    have key : ∀ off, region m v ≠ .suzy off := by
      intro off
      unfold region
      rw [if_neg h9, if_neg hC, if_neg hD]
      split_ifs <;> simp
    unfold isPort
    split
    · rename_i off e; exact absurd e (key off)
    all_goals rfl
  · intro sp e
    have h2 := congrArg hiByte e
    rw [h1] at h2
    simp [stackAddr] at h2

theorem loadVector_core (vec : Addr) (s : State) (h : isPort s.mapctl (vec + 1) = false) :
    (loadVector vec s).core = { s.core with pc := pair (peek s (vec + 1)) (peek s vec) } := by
  have e : peek (afterRead .vectorRead vec s) (vec + 1) = peek s (vec + 1) := peek_afterRead _ _ h
  simp only [loadVector, memRead, e, setPc_core, afterRead_core]

theorem Frame.loadVector (h : Frame n ws mem s t) (v : Addr) : Frame (n + 2) ws mem s (loadVector v t) :=
  ((h.afterRead _ _).afterRead _ _).setPc _

/-- The status byte as R24 lays it out. -/
theorem statusByte_eq (b : Bool) (p : Flags) : p.statusByte b = statusBits b p := rfl

/-- TAKING AN EXCEPTION, once: from a state that differs from `s` by reads and by `PC` only, the whole of `TakesException`. -/
theorem takeException_spec (hq : Quiet n s t) (hwf : Memory.wf s.ram = true) (b : Bool) {vec : Addr}
    (hv : vec = 0xFFFA ∨ vec = 0xFFFE) (hc : t.core = { s.core with pc := t.pc }) :
    TakesException (n + 5) b t.pc vec s (takeException b vec t) := by
  have hsp : t.sp = s.sp := congrArg CoreRegs.sp hc
  have hp : t.p = s.p := congrArg CoreRegs.p hc
  have e2 : s.sp - 1 - 1 = s.sp - 2 := by bv_omega
  have e3 : s.sp - 2 - 1 = s.sp - 3 := by bv_omega
  have f3 := ((hq.push hwf (hiByte t.pc)).push hwf (loByte t.pc)).push hwf (statusBits b s.p)
  simp only [push_sp, hsp, e2] at f3
  have hA : 0xFFFA ≤ vec.toNat ∧ 0xFFFA ≤ (vec + 1).toNat := by rcases hv with rfl | rfl <;> decide
  have hpk : ∀ v : Addr, 0xFFFA ≤ v.toNat →
      peek (push (statusBits b s.p) (push (loByte t.pc) (push (hiByte t.pc) t))) v = peek s v := by
    intro v hv'
    have h1 := vector_plain s.mapctl hv'
    exact f3.peek h1.1 (by simp [h1.2])
  have hm : ∀ (f : Flags) (u : State) (a : Addr), peek (u.setP f) a = peek u a := fun _ _ _ => rfl
  unfold takeException
  simp only [pushPc, push_p, push_params, hp, statusByte_eq]
  refine ⟨?_, (f3.setP _).loadVector vec⟩
  rw [loadVector_core _ _ (by
    have := (vector_plain s.mapctl hA.2).1
    simpa [push_mapctl, hq.devices.mapctl] using this)]
  rw [hm, hm, hpk _ hA.1, hpk _ hA.2]
  simp only [setP_core, push_core, push_sp, hc, hsp, e2, e3, hq.devices.params]
  cases hd : s.params.intClearsD <;> simp [maskFlags]

/-- An interrupt entry, once (R320). -/
theorem interruptEntry_spec (hwf : Memory.wf s.ram = true) {vec : Addr} (hv : vec = 0xFFFA ∨ vec = 0xFFFE) :
    TakesException 7 false s.pc vec s (interruptEntry vec s) := by
  have h2 : Quiet 2 s (dummyRead s.pc (dummyRead s.pc s)) := ((Quiet.refl s).afterRead _ _).afterRead _ _
  have h := takeException_spec h2 hwf false hv (by simp [dummyRead, State.core])
  simpa [dummyRead, interruptEntry] using h

end Sys2Proof.Machine
end

