-- ==== Sys2Proof/Laws/Devices.lean ====
section
/-! SUPPORT. What the devices can touch: a bus write changes no register of the core, no interrupt latch of NMI and no
parameter; a tick changes device state and the IRQ line only. -/

namespace Sys2Proof.Machine

/-- The part of the state that no device action touches. -/
structure SameCore (s t : State) : Prop where
  core : t.core = s.core
  nmiLine : t.nmiLine = s.nmiLine
  nmiPending : t.nmiPending = s.nmiPending
  params : t.params = s.params
  eeprom : t.eeprom = s.eeprom
  bus : t.bus = s.bus

theorem SameCore.refl (s : State) : SameCore s s := ⟨rfl, rfl, rfl, rfl, rfl, rfl⟩

theorem SameCore.trans {s t u : State} (h : SameCore s t) (g : SameCore t u) : SameCore s u :=
  ⟨g.core.trans h.core, g.nmiLine.trans h.nmiLine, g.nmiPending.trans h.nmiPending, g.params.trans h.params,
    g.eeprom.trans h.eeprom, g.bus.trans h.bus⟩

theorem recomputeIrq_same (s : State) : SameCore s (recomputeIrq s) := ⟨rfl, rfl, rfl, rfl, rfl, rfl⟩

theorem setPending_same (s : State) (v : Byte) : SameCore s (setPending s v) := ⟨rfl, rfl, rfl, rfl, rfl, rfl⟩

theorem mikeyWrite_same (off v : Byte) (s : State) : SameCore s (mikeyWrite off v s) := by
  unfold mikeyWrite
  cases mikeyReg off with
  | none => exact SameCore.refl s
  | some r => cases r <;> exact ⟨rfl, rfl, rfl, rfl, rfl, rfl⟩

theorem renderSprite_same (a : Addr) (s : State) : SameCore s (renderSprite a s) := ⟨rfl, rfl, rfl, rfl, rfl, rfl⟩

theorem walkChain_same (k : Nat) (a : Addr) (s : State) : SameCore s (walkChain k a s) := by
  induction k generalizing a s with
  | zero => exact SameCore.refl s
  | succ k ih =>
    unfold walkChain
    dsimp only
    split
    · exact renderSprite_same a s
    · exact (renderSprite_same a s).trans (ih _ _)

theorem startSpriteEngine_same (s : State) : SameCore s (startSpriteEngine s) := by
  unfold startSpriteEngine
  have h0 : SameCore s (s.setSuzy { s.suzy with busy := true, stall := 0 }) := ⟨rfl, rfl, rfl, rfl, rfl, rfl⟩
  have h1 : ∀ u, SameCore s u → SameCore s (chargeStall u) := fun u h => h.trans ⟨rfl, rfl, rfl, rfl, rfl, rfl⟩
  have h2 : SameCore s (if hiByte s.suzy.scbadr = 0 then (s.setSuzy { s.suzy with busy := true, stall := 0 }).bumpFree
      else s.setSuzy { s.suzy with busy := true, stall := 0 }) := by
    split
    · exact h0.trans ⟨rfl, rfl, rfl, rfl, rfl, rfl⟩
    · exact h0
  apply h1
  split
  · exact h2.trans (walkChain_same _ _ _)
  · exact h2

theorem divide_same (s : State) : SameCore s (divide s) := by
  unfold divide
  dsimp only
  split <;> exact ⟨rfl, rfl, rfl, rfl, rfl, rfl⟩

theorem suzyWrite_same (off v : Byte) (s : State) : SameCore s (suzyWrite off v s) := by
  unfold suzyWrite
  cases suzyReg off with
  | none => exact SameCore.refl s
  | some r =>
    cases r with
    | wordLo w => exact ⟨rfl, rfl, rfl, rfl, rfl, rfl⟩
    | wordHi w => exact ⟨rfl, rfl, rfl, rfl, rfl, rfl⟩
    | math r =>
      have h0 : SameCore s (s.setSuzy (s.suzy.setMathByte v r)) := ⟨rfl, rfl, rfl, rfl, rfl, rfl⟩
      cases r with
      | a => exact h0.trans ⟨rfl, rfl, rfl, rfl, rfl, rfl⟩
      | e => exact h0.trans (divide_same _)
      | b => exact h0
      | c => exact h0
      | d => exact h0
      | f => exact h0
      | g => exact h0
      | h => exact h0
      | j => exact h0
      | k => exact h0
      | l => exact h0
      | m => exact h0
      | n => exact h0
      | p => exact h0
    | sprgo =>
      simp only [suzyRegWrite]
      split
      · exact startSpriteEngine_same s
      · exact SameCore.refl s
    | sprsys => exact ⟨rfl, rfl, rfl, rfl, rfl, rfl⟩
    | joystick => exact SameCore.refl s
    | switches => exact SameCore.refl s
    | rcart b => exact SameCore.refl s

/-- Where a write goes, the core does not see. -/
theorem busStore_same (a : Addr) (v : Byte) (s : State) : SameCore s (busStore a v s) := by
  unfold busStore
  split
  · exact ⟨rfl, rfl, rfl, rfl, rfl, rfl⟩
  · exact suzyWrite_same _ _ _
  · exact mikeyWrite_same _ _ _
  · split
    · exact ⟨rfl, rfl, rfl, rfl, rfl, rfl⟩
    · exact SameCore.refl s
  · exact ⟨rfl, rfl, rfl, rfl, rfl, rfl⟩

@[simp] theorem memWrite_core (k : WriteKind) (a : Addr) (v : Byte) (s : State) : (memWrite k a v s).core = s.core :=
  (busStore_same a v _).core

@[simp] theorem memWrite_params (k : WriteKind) (a : Addr) (v : Byte) (s : State) : (memWrite k a v s).params = s.params :=
  (busStore_same a v _).params

@[simp] theorem memWrite_bus (k : WriteKind) (a : Addr) (v : Byte) (s : State) :
    (memWrite k a v s).bus = .write k a v :: s.bus := (busStore_same a v _).bus

/-! ### The tick -/

/-- What a tick leaves alone (R300, R343, R371): all but the timers, the interrupt controller, video, audio and the IRQ line. -/
structure Ticked (s t : State) : Prop where
  core : t.core = s.core
  cyc : t.cyc = s.cyc
  nmiLine : t.nmiLine = s.nmiLine
  nmiPending : t.nmiPending = s.nmiPending
  mapctl : t.mapctl = s.mapctl
  ram : t.ram = s.ram
  suzy : t.suzy = s.suzy
  cart : t.cart = s.cart
  eeprom : t.eeprom = s.eeprom
  params : t.params = s.params
  freeCtr : t.freeCtr = s.freeCtr
  bus : t.bus = s.bus

theorem Ticked.refl (s : State) : Ticked s s := ⟨rfl, rfl, rfl, rfl, rfl, rfl, rfl, rfl, rfl, rfl, rfl, rfl⟩

theorem Ticked.trans {s t u : State} (h : Ticked s t) (g : Ticked t u) : Ticked s u :=
  ⟨g.core.trans h.core, g.cyc.trans h.cyc, g.nmiLine.trans h.nmiLine, g.nmiPending.trans h.nmiPending,
    g.mapctl.trans h.mapctl, g.ram.trans h.ram, g.suzy.trans h.suzy, g.cart.trans h.cart, g.eeprom.trans h.eeprom,
    g.params.trans h.params, g.freeCtr.trans h.freeCtr, g.bus.trans h.bus⟩

theorem setTimer_ticked (s : State) (n : Fin 8) (t : Timer) : Ticked s (s.setTimer n t) :=
  ⟨rfl, rfl, rfl, rfl, rfl, rfl, rfl, rfl, rfl, rfl, rfl, rfl⟩

theorem setChannel_ticked (s : State) (c : Fin 4) (ch : Channel) : Ticked s (s.setChannel c ch) :=
  ⟨rfl, rfl, rfl, rfl, rfl, rfl, rfl, rfl, rfl, rfl, rfl, rfl⟩

theorem setVideo_ticked (s : State) (v : Video) : Ticked s (s.setVideo v) :=
  ⟨rfl, rfl, rfl, rfl, rfl, rfl, rfl, rfl, rfl, rfl, rfl, rfl⟩

theorem recomputeIrq_ticked (s : State) : Ticked s (recomputeIrq s) :=
  ⟨rfl, rfl, rfl, rfl, rfl, rfl, rfl, rfl, rfl, rfl, rfl, rfl⟩

theorem iterate_ticked {f : State → State} (hf : ∀ s, Ticked s (f s)) (k : Nat) (s : State) : Ticked s (f^[k] s) := by
  induction k generalizing s with
  | zero => exact Ticked.refl s
  | succ k ih =>
    rw [Function.iterate_succ_apply]
    exact (hf s).trans (ih _)

theorem foldl_ticked {ι : Type} {f : State → ι → State} (hf : ∀ s i, Ticked s (f s i)) (l : List ι) (s : State) :
    Ticked s (l.foldl f s) := by
  induction l generalizing s with
  | nil => exact Ticked.refl s
  | cons i l ih => exact (hf s i).trans (ih _)

theorem decrementChannel_ticked (fuel : Nat) (c : Fin 4) (s : State) : Ticked s (decrementChannel fuel c s) := by
  induction fuel generalizing c s with
  | zero => exact Ticked.refl s
  | succ k ih =>
    unfold decrementChannel
    dsimp only
    split
    · exact setChannel_ticked _ _ _
    · split
      · split
        · exact (setChannel_ticked _ _ _).trans (ih _ _)
        · exact setChannel_ticked _ _ _
      · exact setChannel_ticked _ _ _

theorem audioCascade_ticked (c : Fin 4) (s : State) : Ticked s (audioCascade c s) := by
  unfold audioCascade
  split
  · exact decrementChannel_ticked _ _ _
  · exact Ticked.refl s

theorem audioTick_ticked (now : Nat) (s : State) : Ticked s (audioTick now s) := by
  refine foldl_ticked (fun s c => ?_) _ s
  unfold tickChannel
  dsimp only
  split
  · exact iterate_ticked (fun s => (setChannel_ticked _ _ _).trans (decrementChannel_ticked _ _ _)) _ s
  · exact setChannel_ticked _ _ _

theorem raisePending_ticked (n : Fin 8) (s : State) : Ticked s (raisePending n s) := by
  unfold raisePending
  split
  · exact ⟨rfl, rfl, rfl, rfl, rfl, rfl, rfl, rfl, rfl, rfl, rfl, rfl⟩
  · exact Ticked.refl s

theorem videoHook_ticked (n : Fin 8) (s : State) : Ticked s (videoHook n s) := by
  unfold videoHook
  split
  · exact setVideo_ticked _ _
  · split
    · exact setVideo_ticked _ _
    · exact Ticked.refl s

theorem decrementTimer_ticked (fuel : Nat) (n : Fin 8) (s : State) : Ticked s (decrementTimer fuel n s) := by
  induction fuel generalizing n s with
  | zero => exact Ticked.refl s
  | succ k ih =>
    unfold decrementTimer
    dsimp only
    split
    · exact setTimer_ticked _ _ _
    · have h1 := (((setTimer_ticked s n s.timers[n].underflow).trans (raisePending_ticked n _)).trans
        (videoHook_ticked n _))
      have h2 : ∀ u, Ticked s u → Ticked s (if n = 7 then audioCascade 0 u else u) := by
        intro u hu
        split
        · exact hu.trans (audioCascade_ticked 0 u)
        · exact hu
      apply h2
      cases timerSucc n with
      | none => exact h1
      | some m =>
        dsimp only
        split
        · exact h1.trans (ih _ _)
        · exact h1

theorem timerTick_ticked (now : Nat) (s : State) : Ticked s (timerTick now s) := by
  refine foldl_ticked (fun s n => ?_) _ s
  unfold tickTimer
  dsimp only
  split
  · exact iterate_ticked (fun s => (setTimer_ticked _ _ _).trans (decrementTimer_ticked _ _ _)) _ s
  · exact setTimer_ticked _ _ _

/-- The devices' part of a step. -/
theorem platformTick_ticked (s : State) : Ticked s (platformTick s) :=
  ((timerTick_ticked _ s).trans (audioTick_ticked _ _)).trans (recomputeIrq_ticked _)

end Sys2Proof.Machine
end

