-- ==== Sys2Proof/Laws/Access.lean ====
section
/-! SUPPORT. What storing, modifying and the arithmetic of the accumulator do, once for each shared operation. -/

namespace Sys2Proof.Machine

variable {n : Nat} {ws : List BusEvent} {mem : Addr → Byte} {s t : State}

/-! ### Operands read, stored, modified -/

@[simp] theorem readOperand_a (o : Operand) (s : State) : (readOperand o (fetchOpcode s)).2.a = s.a :=
  congrArg CoreRegs.a (readOperand_core o s)
@[simp] theorem readOperand_x (o : Operand) (s : State) : (readOperand o (fetchOpcode s)).2.x = s.x :=
  congrArg CoreRegs.x (readOperand_core o s)
@[simp] theorem readOperand_y (o : Operand) (s : State) : (readOperand o (fetchOpcode s)).2.y = s.y :=
  congrArg CoreRegs.y (readOperand_core o s)
@[simp] theorem readOperand_p (o : Operand) (s : State) : (readOperand o (fetchOpcode s)).2.p = s.p :=
  congrArg CoreRegs.p (readOperand_core o s)
@[simp] theorem readOperand_freeCtr (o : Operand) (s : State) : (readOperand o (fetchOpcode s)).2.freeCtr = s.freeCtr :=
  (readOperand_quiet o s).devices.freeCtr

@[simp] theorem implied_a (s : State) : (implied s).a = s.a := by simp [implied, dummyRead]
@[simp] theorem implied_x (s : State) : (implied s).x = s.x := by simp [implied, dummyRead]
@[simp] theorem implied_y (s : State) : (implied s).y = s.y := by simp [implied, dummyRead]
@[simp] theorem implied_sp (s : State) : (implied s).sp = s.sp := by simp [implied, dummyRead]
@[simp] theorem implied_p (s : State) : (implied s).p = s.p := by simp [implied, dummyRead]
@[simp] theorem implied_pc (s : State) : (implied s).pc = s.pc := by simp [implied, dummyRead]

/-- Two cycles of an implied instruction, before its own effect. -/
theorem implied_quiet (s : State) : Quiet 2 s (implied (fetchOpcode s)) := (Quiet.refl s).fetchOpcode.implied

/-- Counting a free value keeps a frame, seen from the state that counts it. -/
theorem Quiet.bumpFree (h : Quiet n s t) : Quiet n s.bumpFree t.bumpFree :=
  ⟨h.1, h.2, h.3, h.4, ⟨h.5.1, h.5.2, h.5.3, h.5.4, h.5.5, h.5.6, h.5.7, h.5.8, h.5.9, h.5.10, h.5.11, by
    simp [h.5.12]⟩⟩

/-- A store: the reads that resolve the address, then one write (R117). -/
theorem storeOperand_eq (m : MemMode) (v : Byte) (s : State) :
    storeOperand m v (fetchOpcode s) = memWrite .write (storeAddress m s) v (resolve .write m (fetchOpcode s)).2 := rfl

/-- A read-modify-write: the reads, the flags, then one write of the new byte at the address read (R200). -/
theorem modifyMemory_eq (m : MemMode) (f : Byte → Flags → Byte × Flags) (s : State) :
    ∃ u, modifyMemory m f (fetchOpcode s) = memWrite .write (modifyAddress m s) (f (modifyValue m s) s.p).1 u ∧
      Quiet (writeCycles m + 1) s u ∧
      u.core = { s.core with pc := pcAfter s (1 + m.operandBytes), p := (f (modifyValue m s) s.p).2 } := by
  have hq := resolve_quiet .modify m s
  have hcore := resolve_core .modify m s
  have hle := dataCycles_le .modify m s
  have hn : memCycles .modify m s - dataCycles .modify + 1 + 1 = writeCycles m + 1 := by
    simp only [dataCycles, memCycles] at hle ⊢; omega
  have hp : (resolve .modify m (fetchOpcode s)).2.p = s.p := congrArg CoreRegs.p hcore
  have hq' := (hq.afterRead .read (modifyAddress m s)).afterRead .dummyRead (modifyAddress m s)
  rw [hn] at hq'
  refine ⟨_, ?_, hq'.setP (f (modifyValue m s) s.p).2, ?_⟩
  · simp [modifyMemory, memRead, modifyAddress, modifyValue, dummyRead, hp]
  · simp [hcore]

/-! ### Bytes -/

/-- `ROL`'s byte (R203). -/
theorem rol_eq (m : Byte) (c : Bool) :
    m.extractLsb' 0 7 ++ BitVec.ofBool c = (m <<< 1 ||| (if c then 1 else 0 : Byte)) := by
  revert m c; decide

/-- `ROR`'s byte (R204). -/
theorem ror_eq (m : Byte) (c : Bool) :
    BitVec.ofBool c ++ m.extractLsb' 1 7 = (m >>> 1 ||| (if c then 1 else 0 : Byte) <<< 7) := by
  revert m c; decide

/-- Binary overflow (R174): the operands agree in sign and the sum does not, iff the signed sum leaves a byte's range. -/
theorem add_overflow (a m : Byte) (c : Bool) :
    ((a ^^^ (BitVec.ofNat 8 (a.toNat + m.toNat + c.toNat)))
      &&& (m ^^^ (BitVec.ofNat 8 (a.toNat + m.toNat + c.toNat)))).getLsbD 7 =
    decide (a.toInt + m.toInt + (c.toNat : Int) < -128 ∨ 127 < a.toInt + m.toInt + (c.toNat : Int)) := by
  have ha := a.isLt
  have hm := m.isLt
  have hc : c.toNat ≤ 1 := by cases c <;> simp
  have h7 : ∀ b : Byte, b.getLsbD 7 = decide (128 ≤ b.toNat) := by decide
  have hti : ∀ b : Byte, b.toInt = if 128 ≤ b.toNat then (b.toNat : Int) - 256 else b.toNat := by decide
  simp only [BitVec.getLsbD_and, BitVec.getLsbD_xor]
  simp only [h7, BitVec.toNat_ofNat, hti]
  rw [Bool.eq_iff_iff]
  by_cases h1 : 128 ≤ a.toNat <;> by_cases h2 : 128 ≤ m.toNat <;>
    by_cases h3 : 128 ≤ (a.toNat + m.toNat + c.toNat) % 2 ^ 8 <;> simp [h1, h2] <;> omega

/-- The complement, as a number and as a signed number. -/
theorem complement_values (b : Byte) : (b ^^^ 0xFF).toNat = 255 - b.toNat ∧ (b ^^^ 0xFF).toInt = -1 - b.toInt := by
  revert b; decide

/-- Two decimal digits and back (R172, R173). -/
theorem bcdByte_valid (n : Nat) (h : n < 100) : validBcd (bcdByte n) = true ∧ bcdValue (bcdByte n) = n := by
  revert n; decide

/-- A valid BCD byte is below 100. -/
theorem bcdValue_le (b : Byte) (h : validBcd b = true) : bcdValue b ≤ 99 := by
  revert b; decide

end Sys2Proof.Machine
end

