-- ==== Sys2Proof/Laws/Does.lean ====
section
/-! SUPPORT. What an instruction can do, once: a chain of `n` bus accesses and idle cycles with updates of the core's registers
between them, `n` being the spec's cycle count. A property that each of these actions keeps is kept by every instruction. -/

namespace Sys2Proof.Machine

/-- The state with other core registers. -/
def State.withCore (s : State) (c : CoreRegs) : State :=
  { s with a := c.a, x := c.x, y := c.y, sp := c.sp, pc := c.pc, p := c.p, run := c.run }

/-- `Does n s t`: `t` is reached from `s` by `n` cycles of the core. -/
inductive Does : Nat → State → State → Prop where
  | refl (s : State) : Does 0 s s
  | read {n : Nat} {s t : State} (k : ReadKind) (a : Addr) : Does n s t → Does (n + 1) s (afterRead k a t)
  | idle {n : Nat} {s t : State} : Does n s t → Does (n + 1) s (idle t)
  | write {n : Nat} {s t : State} (k : WriteKind) (a : Addr) (v : Byte) : Does n s t → Does (n + 1) s (memWrite k a v t)
  | regs {n : Nat} {s t : State} (c : CoreRegs) : Does n s t → Does n s (t.withCore c)
  | free {n : Nat} {s t : State} : Does n s t → Does n s t.bumpFree

variable {n : Nat} {s t : State}

theorem Does.setA (h : Does n s t) (v : Byte) : Does n s (t.setA v) := h.regs { t.core with a := v }
theorem Does.setX (h : Does n s t) (v : Byte) : Does n s (t.setX v) := h.regs { t.core with x := v }
theorem Does.setY (h : Does n s t) (v : Byte) : Does n s (t.setY v) := h.regs { t.core with y := v }
theorem Does.setSp (h : Does n s t) (v : Byte) : Does n s (t.setSp v) := h.regs { t.core with sp := v }
theorem Does.setPc (h : Does n s t) (v : Addr) : Does n s (t.setPc v) := h.regs { t.core with pc := v }
theorem Does.setP (h : Does n s t) (f : Flags) : Does n s (t.setP f) := h.regs { t.core with p := f }
theorem Does.setRun (h : Does n s t) (r : RunState) : Does n s (t.setRun r) := h.regs { t.core with run := r }
theorem Does.setNZ (h : Does n s t) (v : Byte) : Does n s (t.setNZ v) := h.setP _

theorem Does.idles (h : Does n s t) (k : Nat) : Does (n + k) s (Machine.idle^[k] t) := by
  induction k generalizing n t with
  | zero => exact h
  | succ k ih =>
    have := ih h.idle
    rw [Function.iterate_succ_apply]
    rwa [Nat.add_right_comm, Nat.add_assoc] at this

theorem Does.fetchOpcode (h : Does n s t) : Does (n + 1) s (fetchOpcode t) := (h.read _ _).setPc _
theorem Does.fetchOperand (h : Does n s t) : Does (n + 1) s (fetchOperand t) := (h.read _ _).setPc _
theorem Does.implied (h : Does n s t) : Does (n + 1) s (implied t) := h.read _ _
theorem Does.dummyRead (h : Does n s t) (a : Addr) : Does (n + 1) s (dummyRead a t) := h.read _ _
theorem Does.push (h : Does n s t) (v : Byte) : Does (n + 1) s (push v t) := (h.write _ _ _).setSp _
theorem Does.pull (h : Does n s t) : Does (n + 1) s (pull t).2 := (h.setSp _).read _ _
theorem Does.pushPc (h : Does n s t) : Does (n + 2) s (pushPc t) := (h.push _).push _
theorem Does.pullPc (h : Does n s t) : Does (n + 2) s (pullPc t) := (h.pull.pull).setPc _
theorem Does.loadVector (h : Does n s t) (v : Addr) : Does (n + 2) s (loadVector v t) := ((h.read _ _).read _ _).setPc _
theorem Does.readPointer (h : Does n s t) (z : Byte) : Does (n + 2) s (readPointer z t).2 := (h.read _ _).read _ _
theorem Does.readPointer16 (h : Does n s t) (w : Addr) : Does (n + 2) s (readPointer16 w t).2 := (h.read _ _).read _ _

theorem Does.takeException (h : Does n s t) (b : Bool) (v : Addr) : Does (n + 5) s (takeException b v t) :=
  ((h.pushPc.push _).setP _).loadVector v

theorem Does.interruptEntry (h : Does n s t) (v : Addr) : Does (n + 7) s (interruptEntry v t) :=
  ((h.dummyRead _).dummyRead _).takeException false v

theorem Does.returnFromInterrupt (h : Does n s t) : Does (n + 3) s (returnFromInterrupt t) := (h.pull.setP _).pullPc

theorem Does.pageDummy (h : Does n s t) (cls : AccessClass) (w : Addr) (i : Byte) :
    Does (n + pageDummyCycles cls w i) s (pageDummy cls w i t) := by
  unfold Machine.pageDummy pageDummyCycles
  split
  · exact h.read _ _
  · exact h

/-- Resolving a mode: the cycles of R117's table but for the data accesses. -/
theorem Does.resolve (cls : AccessClass) (m : MemMode) (s : State) :
    Does (memCycles cls m s - dataCycles cls) s (Machine.resolve cls m (Machine.fetchOpcode s)).2 := by
  have h1 : Does 2 s (Machine.fetchOperand (Machine.fetchOpcode s)) := (Does.refl s).fetchOpcode.fetchOperand
  have h2 := h1.fetchOperand
  cases m with
  | zp z => cases cls <;> exact h1
  | zpx z => cases cls <;> exact h1.read _ _
  | zpy z => cases cls <;> exact h1.read _ _
  | abs w => cases cls <;> exact h2
  | abx w =>
    have h3 := h2.pageDummy cls w s.x
    have e : 3 + pageDummyCycles cls w s.x = memCycles cls (.abx w) s - dataCycles cls := by
      cases cls <;> simp [pageDummyCycles, memCycles, readCycles, writeCycles, dataCycles, pageExtra]
    rw [e] at h3
    simpa [Machine.resolve, absIndexed] using h3
  | aby w =>
    have h3 := h2.pageDummy cls w s.y
    have e : 3 + pageDummyCycles cls w s.y = memCycles cls (.aby w) s - dataCycles cls := by
      cases cls <;> simp [pageDummyCycles, memCycles, readCycles, writeCycles, dataCycles, pageExtra]
    rw [e] at h3
    simpa [Machine.resolve, absIndexed] using h3
  | izx z => cases cls <;> exact (h1.read _ _).readPointer _
  | izy z =>
    have h3 := (h1.readPointer z).pageDummy cls (zeroPagePointer s z) s.y
    have e : 2 + 2 + pageDummyCycles cls (zeroPagePointer s z) s.y = memCycles cls (.izy z) s - dataCycles cls := by
      cases cls <;> simp [pageDummyCycles, memCycles, readCycles, writeCycles, dataCycles, pageExtra]
    rw [e] at h3
    simpa [Machine.resolve, readPointer_fst, zeroPagePointer] using h3
  | izp z => cases cls <;> exact h1.readPointer _

theorem Does.readOperand (o : Operand) (s : State) :
    Does (operandCycles o s) s (Machine.readOperand o (Machine.fetchOpcode s)).2 := by
  cases o with
  | imm v => exact (Does.refl s).fetchOpcode.fetchOperand
  | mem m =>
    have h := (Does.resolve .read m s).read .read (Machine.resolve .read m (Machine.fetchOpcode s)).1
    have := dataCycles_le .read m s
    have e : memCycles .read m s - dataCycles .read + 1 = operandCycles (.mem m) s := by
      simp only [dataCycles, operandCycles] at this ⊢; omega
    rw [e] at h
    exact h

theorem Does.storeOperand (m : MemMode) (v : Byte) (s : State) :
    Does (memCycles .write m s) s (Machine.storeOperand m v (Machine.fetchOpcode s)) := by
  have h := (Does.resolve .write m s).write .write (Machine.resolve .write m (Machine.fetchOpcode s)).1 v
  have := dataCycles_le .write m s
  have e : memCycles .write m s - dataCycles .write + 1 = memCycles .write m s := by
    simp only [dataCycles] at this ⊢; omega
  rw [e] at h
  exact h

theorem Does.modifyMemory (m : MemMode) (f : Byte → Flags → Byte × Flags) (s : State) :
    Does (memCycles .modify m s) s (Machine.modifyMemory m f (Machine.fetchOpcode s)) := by
  have h := (((Does.resolve .modify m s).read .read (Machine.resolve .modify m (Machine.fetchOpcode s)).1).read .dummyRead
    (Machine.resolve .modify m (Machine.fetchOpcode s)).1)
  have := dataCycles_le .modify m s
  have e : memCycles .modify m s - dataCycles .modify + 1 + 1 + 1 = memCycles .modify m s := by
    simp only [dataCycles] at this ⊢; omega
  rw [← e]
  exact (h.setP _).write _ _ _

theorem Does.modifyOperand (o : RmwOperand) (f : Byte → Flags → Byte × Flags) (s : State) :
    Does (rmwCycles o s) s (Machine.modifyOperand o f (Machine.fetchOpcode s)) := by
  cases o with
  | acc => exact (((Does.refl s).fetchOpcode.implied).setA _).setP _
  | mem m => exact Does.modifyMemory m f s

theorem Does.takeBranch (h : Does n s t) (off : Byte) :
    Does (n + (if hiByte (relative t.pc off) = hiByte t.pc then 1 else 2)) s (Machine.takeBranch off t) := by
  unfold Machine.takeBranch
  dsimp only
  split
  · exact (h.read .dummyRead _).setPc _
  · exact ((h.read .dummyRead _).read .dummyRead _).setPc _

/-- A branch whose offset byte is the next to be fetched. -/
theorem Does.branch (h : Does n s t) (c : Bool) (off : Byte) :
    Does (n + 1 + takenExtra c (t.pc + 1) off) s (Machine.branch c off t) := by
  unfold Machine.branch takenExtra
  cases c with
  | false => exact h.fetchOperand
  | true => exact h.fetchOperand.takeBranch off

theorem Does.decimalResult (h : Does n s t) (b : Bool) (r : Byte × Bool) : Does n s (decimalResult b r t) := by
  unfold Machine.decimalResult
  dsimp only
  split
  · exact ((h.setA _).setP _).free
  · exact ((h.setA _).setP _).free

theorem Does.addOperand (h : Does n s t) (m : Byte) : Does (n + decimalExtra t) s (addOperand m t) := by
  unfold Machine.addOperand decimalExtra
  split
  · exact (h.decimalResult _ _).idle
  · exact (h.setA _).setP _

theorem Does.subOperand (h : Does n s t) (m : Byte) : Does (n + decimalExtra t) s (subOperand m t) := by
  unfold Machine.subOperand decimalExtra
  split
  · exact (h.decimalResult _ _).idle
  · exact (h.setA _).setP _

theorem decimalExtra_readOperand (o : Operand) (s : State) :
    decimalExtra (Machine.readOperand o (Machine.fetchOpcode s)).2 = decimalExtra s := by
  have h : (Machine.readOperand o (Machine.fetchOpcode s)).2.p = s.p := congrArg CoreRegs.p (readOperand_core o s)
  simp [decimalExtra, h]

theorem Does.fetchOperands (h : Does n s t) (k : Nat) : Does (n + k) s (Machine.fetchOperand^[k] t) := by
  induction k generalizing n t with
  | zero => exact h
  | succ k ih =>
    have := ih h.fetchOperand
    rw [Function.iterate_succ_apply]
    rwa [Nat.add_right_comm, Nat.add_assoc] at this

theorem Does.undefinedOpcode {op : Byte} {k : Nat} {s t : State} (h : undefinedOpcode op k s = .next t) :
    Does (1 + k + undefExtra s op) s t := by
  unfold Machine.undefinedOpcode at h
  dsimp only at h
  split at h
  · cases h
  · cases h
    exact ((Does.refl s).fetchOpcode.fetchOperands k).idles _

/-- What `BBRn` and `BBSn` do. -/
theorem Does.branchOnBit (k : Nat) (want : Bool) (z off : Byte) (s : State) :
    Does (bitBranchCycles (zeroPageBit k z s == want) (s.pc + 3) off) s (branchOnBit k want z off s) := by
  have h := ((((Does.refl s).fetchOpcode.fetchOperand.read .read (zeroPage z)).read .dummyRead (zeroPage z)).branch
    (zeroPageBit k z s == want) off)
  rw [show s.pc + 3 = s.pc + 1 + 1 + 1 by bv_omega]
  simpa [Machine.branchOnBit, memRead, Machine.dummyRead, zeroPageBit, bitBranchCycles] using h

theorem Does.jump (j : JumpTarget) (s : State) :
    Does (jumpCycles j) s ((resolveJump j (Machine.fetchOpcode s)).2.setPc (resolveJump j (Machine.fetchOpcode s)).1) := by
  have h := (Does.refl s).fetchOpcode.fetchOperand.fetchOperand
  cases j with
  | abs w => exact h.setPc _
  | ind w => exact (h.readPointer16 w).setPc _
  | iax w => exact (h.idle.readPointer16 _).setPc _

theorem branch_does (c : Bool) (off : Byte) (s : State) :
    Does (branchCycles c (s.pc + 2) off) s (branch c off (Machine.fetchOpcode s)) := by
  have h := (Does.refl s).fetchOpcode.branch c off
  rw [show s.pc + 2 = s.pc + 1 + 1 by bv_omega]
  simpa [branchCycles] using h

/-- EVERY INSTRUCTION is such a chain, of the length the spec's table gives (R420). -/
theorem exec_does {i : Instr} {s t : State} (h : exec i s = .next t) : Does (instrCycles i s) s t := by
  have h1 : Does 2 s (Machine.implied (Machine.fetchOpcode s)) := (Does.refl s).fetchOpcode.implied
  cases i with
  | lda o => cases h; exact ((Does.readOperand o s).setA _).setNZ _
  | ldx o => cases h; exact ((Does.readOperand o s).setX _).setNZ _
  | ldy o => cases h; exact ((Does.readOperand o s).setY _).setNZ _
  | sta m => cases h; exact Does.storeOperand m _ s
  | stx m => cases h; exact Does.storeOperand m _ s
  | sty m => cases h; exact Does.storeOperand m _ s
  | stz m => cases h; exact Does.storeOperand m _ s
  | tax => cases h; exact (h1.setX _).setNZ _
  | tay => cases h; exact (h1.setY _).setNZ _
  | txa => cases h; exact (h1.setA _).setNZ _
  | tya => cases h; exact (h1.setA _).setNZ _
  | tsx => cases h; exact (h1.setX _).setNZ _
  | txs => cases h; exact h1.setSp _
  | pha => cases h; exact h1.push _
  | phx => cases h; exact h1.push _
  | phy => cases h; exact h1.push _
  | php => cases h; exact h1.push _
  | pla => cases h; exact ((h1.dummyRead _).pull.setA _).setNZ _
  | plx => cases h; exact ((h1.dummyRead _).pull.setX _).setNZ _
  | ply => cases h; exact ((h1.dummyRead _).pull.setY _).setNZ _
  | plp => cases h; exact (h1.dummyRead _).pull.setP _
  | adc o =>
    cases h
    have := (Does.readOperand o s).addOperand (Machine.readOperand o (Machine.fetchOpcode s)).1
    rw [decimalExtra_readOperand] at this
    exact this
  | sbc o =>
    cases h
    have := (Does.readOperand o s).subOperand (Machine.readOperand o (Machine.fetchOpcode s)).1
    rw [decimalExtra_readOperand] at this
    exact this
  | and o => cases h; exact ((Does.readOperand o s).setA _).setNZ _
  | ora o => cases h; exact ((Does.readOperand o s).setA _).setNZ _
  | eor o => cases h; exact ((Does.readOperand o s).setA _).setNZ _
  | cmp o => cases h; exact (Does.readOperand o s).setP _
  | cpx o => cases h; exact (Does.readOperand o s).setP _
  | cpy o => cases h; exact (Does.readOperand o s).setP _
  | bit o => cases h; exact (Does.readOperand o s).setP _
  | tsb m => cases h; exact Does.modifyMemory m _ s
  | trb m => cases h; exact Does.modifyMemory m _ s
  | asl o => cases h; exact Does.modifyOperand o _ s
  | lsr o => cases h; exact Does.modifyOperand o _ s
  | rol o => cases h; exact Does.modifyOperand o _ s
  | ror o => cases h; exact Does.modifyOperand o _ s
  | inc o => cases h; exact Does.modifyOperand o _ s
  | dec o => cases h; exact Does.modifyOperand o _ s
  | inx => cases h; exact (h1.setX _).setNZ _
  | iny => cases h; exact (h1.setY _).setNZ _
  | dex => cases h; exact (h1.setX _).setNZ _
  | dey => cases h; exact (h1.setY _).setNZ _
  | bcc off => cases h; exact (branch_does _ off s)
  | bcs off => cases h; exact (branch_does _ off s)
  | beq off => cases h; exact (branch_does _ off s)
  | bne off => cases h; exact (branch_does _ off s)
  | bmi off => cases h; exact (branch_does _ off s)
  | bpl off => cases h; exact (branch_does _ off s)
  | bvc off => cases h; exact (branch_does _ off s)
  | bvs off => cases h; exact (branch_does _ off s)
  | bra off => cases h; exact (branch_does _ off s)
  | jmp j => cases h; exact Does.jump j s
  | jsr w => cases h; exact (((((Does.refl s).fetchOpcode.fetchOperand.dummyRead _).pushPc).fetchOperand).setPc _)
  | rts => cases h; exact (((h1.dummyRead _).pullPc.dummyRead _).setPc _)
  | rti => cases h; exact (h1.dummyRead _).returnFromInterrupt
  | brk sig => cases h; exact (Does.refl s).fetchOpcode.fetchOperand.takeException true irqVector
  | clc => cases h; exact h1.setP _
  | sec => cases h; exact h1.setP _
  | cli => cases h; exact h1.setP _
  | sei => cases h; exact h1.setP _
  | cld => cases h; exact h1.setP _
  | sed => cases h; exact h1.setP _
  | clv => cases h; exact h1.setP _
  | nop => cases h; exact h1
  | wai => cases h; exact h1.idle.setRun _
  | stp => cases h; exact h1.idle.setRun _
  | nop1 op => exact Does.undefinedOpcode h
  | nop2 op b1 => exact Does.undefinedOpcode h
  | nop3 op w => exact Does.undefinedOpcode h
  | rmb0 z => cases h; exact Does.modifyMemory (.zp z) _ s
  | rmb1 z => cases h; exact Does.modifyMemory (.zp z) _ s
  | rmb2 z => cases h; exact Does.modifyMemory (.zp z) _ s
  | rmb3 z => cases h; exact Does.modifyMemory (.zp z) _ s
  | rmb4 z => cases h; exact Does.modifyMemory (.zp z) _ s
  | rmb5 z => cases h; exact Does.modifyMemory (.zp z) _ s
  | rmb6 z => cases h; exact Does.modifyMemory (.zp z) _ s
  | rmb7 z => cases h; exact Does.modifyMemory (.zp z) _ s
  | smb0 z => cases h; exact Does.modifyMemory (.zp z) _ s
  | smb1 z => cases h; exact Does.modifyMemory (.zp z) _ s
  | smb2 z => cases h; exact Does.modifyMemory (.zp z) _ s
  | smb3 z => cases h; exact Does.modifyMemory (.zp z) _ s
  | smb4 z => cases h; exact Does.modifyMemory (.zp z) _ s
  | smb5 z => cases h; exact Does.modifyMemory (.zp z) _ s
  | smb6 z => cases h; exact Does.modifyMemory (.zp z) _ s
  | smb7 z => cases h; exact Does.modifyMemory (.zp z) _ s
  | bbr0 z off => cases h; exact Does.branchOnBit 0 false z off s
  | bbr1 z off => cases h; exact Does.branchOnBit 1 false z off s
  | bbr2 z off => cases h; exact Does.branchOnBit 2 false z off s
  | bbr3 z off => cases h; exact Does.branchOnBit 3 false z off s
  | bbr4 z off => cases h; exact Does.branchOnBit 4 false z off s
  | bbr5 z off => cases h; exact Does.branchOnBit 5 false z off s
  | bbr6 z off => cases h; exact Does.branchOnBit 6 false z off s
  | bbr7 z off => cases h; exact Does.branchOnBit 7 false z off s
  | bbs0 z off => cases h; exact Does.branchOnBit 0 true z off s
  | bbs1 z off => cases h; exact Does.branchOnBit 1 true z off s
  | bbs2 z off => cases h; exact Does.branchOnBit 2 true z off s
  | bbs3 z off => cases h; exact Does.branchOnBit 3 true z off s
  | bbs4 z off => cases h; exact Does.branchOnBit 4 true z off s
  | bbs5 z off => cases h; exact Does.branchOnBit 5 true z off s
  | bbs6 z off => cases h; exact Does.branchOnBit 6 true z off s
  | bbs7 z off => cases h; exact Does.branchOnBit 7 true z off s

/-- Every instruction completes, but for an undefined opcode in strict mode (R332). -/
theorem exec_next_or_strict (i : Instr) (s : State) :
    (∃ t, exec i s = .next t) ∨ (∃ op, s.params.strictUndefined = true ∧ exec i s = .fault (.unknownOpcode op (fetchOpcode s)))
    := by
  have hu : ∀ op k, (∃ t, undefinedOpcode op k s = .next t) ∨
      (∃ op', s.params.strictUndefined = true ∧ undefinedOpcode op k s = .fault (.unknownOpcode op' (Machine.fetchOpcode s))) := by
    intro op k
    unfold Machine.undefinedOpcode
    dsimp only
    split
    · exact .inr ⟨op, ‹_›, rfl⟩
    · exact .inl ⟨_, rfl⟩
  cases i with
  | lda o => exact .inl ⟨_, rfl⟩
  | ldx o => exact .inl ⟨_, rfl⟩
  | ldy o => exact .inl ⟨_, rfl⟩
  | sta m => exact .inl ⟨_, rfl⟩
  | stx m => exact .inl ⟨_, rfl⟩
  | sty m => exact .inl ⟨_, rfl⟩
  | stz m => exact .inl ⟨_, rfl⟩
  | tax => exact .inl ⟨_, rfl⟩
  | tay => exact .inl ⟨_, rfl⟩
  | txa => exact .inl ⟨_, rfl⟩
  | tya => exact .inl ⟨_, rfl⟩
  | tsx => exact .inl ⟨_, rfl⟩
  | txs => exact .inl ⟨_, rfl⟩
  | pha => exact .inl ⟨_, rfl⟩
  | phx => exact .inl ⟨_, rfl⟩
  | phy => exact .inl ⟨_, rfl⟩
  | php => exact .inl ⟨_, rfl⟩
  | pla => exact .inl ⟨_, rfl⟩
  | plx => exact .inl ⟨_, rfl⟩
  | ply => exact .inl ⟨_, rfl⟩
  | plp => exact .inl ⟨_, rfl⟩
  | adc o => exact .inl ⟨_, rfl⟩
  | sbc o => exact .inl ⟨_, rfl⟩
  | and o => exact .inl ⟨_, rfl⟩
  | ora o => exact .inl ⟨_, rfl⟩
  | eor o => exact .inl ⟨_, rfl⟩
  | cmp o => exact .inl ⟨_, rfl⟩
  | cpx o => exact .inl ⟨_, rfl⟩
  | cpy o => exact .inl ⟨_, rfl⟩
  | bit o => exact .inl ⟨_, rfl⟩
  | tsb m => exact .inl ⟨_, rfl⟩
  | trb m => exact .inl ⟨_, rfl⟩
  | asl o => exact .inl ⟨_, rfl⟩
  | lsr o => exact .inl ⟨_, rfl⟩
  | rol o => exact .inl ⟨_, rfl⟩
  | ror o => exact .inl ⟨_, rfl⟩
  | inc o => exact .inl ⟨_, rfl⟩
  | dec o => exact .inl ⟨_, rfl⟩
  | inx => exact .inl ⟨_, rfl⟩
  | iny => exact .inl ⟨_, rfl⟩
  | dex => exact .inl ⟨_, rfl⟩
  | dey => exact .inl ⟨_, rfl⟩
  | bcc off => exact .inl ⟨_, rfl⟩
  | bcs off => exact .inl ⟨_, rfl⟩
  | beq off => exact .inl ⟨_, rfl⟩
  | bne off => exact .inl ⟨_, rfl⟩
  | bmi off => exact .inl ⟨_, rfl⟩
  | bpl off => exact .inl ⟨_, rfl⟩
  | bvc off => exact .inl ⟨_, rfl⟩
  | bvs off => exact .inl ⟨_, rfl⟩
  | bra off => exact .inl ⟨_, rfl⟩
  | jmp j => exact .inl ⟨_, rfl⟩
  | jsr w => exact .inl ⟨_, rfl⟩
  | rts => exact .inl ⟨_, rfl⟩
  | rti => exact .inl ⟨_, rfl⟩
  | brk sig => exact .inl ⟨_, rfl⟩
  | clc => exact .inl ⟨_, rfl⟩
  | sec => exact .inl ⟨_, rfl⟩
  | cli => exact .inl ⟨_, rfl⟩
  | sei => exact .inl ⟨_, rfl⟩
  | cld => exact .inl ⟨_, rfl⟩
  | sed => exact .inl ⟨_, rfl⟩
  | clv => exact .inl ⟨_, rfl⟩
  | nop => exact .inl ⟨_, rfl⟩
  | wai => exact .inl ⟨_, rfl⟩
  | stp => exact .inl ⟨_, rfl⟩
  | nop1 op => exact hu op 0
  | nop2 op b1 => exact hu op 1
  | nop3 op w => exact hu op 2
  | rmb0 z => exact .inl ⟨_, rfl⟩
  | rmb1 z => exact .inl ⟨_, rfl⟩
  | rmb2 z => exact .inl ⟨_, rfl⟩
  | rmb3 z => exact .inl ⟨_, rfl⟩
  | rmb4 z => exact .inl ⟨_, rfl⟩
  | rmb5 z => exact .inl ⟨_, rfl⟩
  | rmb6 z => exact .inl ⟨_, rfl⟩
  | rmb7 z => exact .inl ⟨_, rfl⟩
  | smb0 z => exact .inl ⟨_, rfl⟩
  | smb1 z => exact .inl ⟨_, rfl⟩
  | smb2 z => exact .inl ⟨_, rfl⟩
  | smb3 z => exact .inl ⟨_, rfl⟩
  | smb4 z => exact .inl ⟨_, rfl⟩
  | smb5 z => exact .inl ⟨_, rfl⟩
  | smb6 z => exact .inl ⟨_, rfl⟩
  | smb7 z => exact .inl ⟨_, rfl⟩
  | bbr0 z off => exact .inl ⟨_, rfl⟩
  | bbr1 z off => exact .inl ⟨_, rfl⟩
  | bbr2 z off => exact .inl ⟨_, rfl⟩
  | bbr3 z off => exact .inl ⟨_, rfl⟩
  | bbr4 z off => exact .inl ⟨_, rfl⟩
  | bbr5 z off => exact .inl ⟨_, rfl⟩
  | bbr6 z off => exact .inl ⟨_, rfl⟩
  | bbr7 z off => exact .inl ⟨_, rfl⟩
  | bbs0 z off => exact .inl ⟨_, rfl⟩
  | bbs1 z off => exact .inl ⟨_, rfl⟩
  | bbs2 z off => exact .inl ⟨_, rfl⟩
  | bbs3 z off => exact .inl ⟨_, rfl⟩
  | bbs4 z off => exact .inl ⟨_, rfl⟩
  | bbs5 z off => exact .inl ⟨_, rfl⟩
  | bbs6 z off => exact .inl ⟨_, rfl⟩
  | bbs7 z off => exact .inl ⟨_, rfl⟩

end Sys2Proof.Machine
end

