-- ==== Sys2Proof/Laws/PerInstr.lean ====
section
/-! SUPPORT. One family of lemmas per instruction: the operand bytes are as many as the length says. -/

namespace Sys2Proof.Laws

/-- The instruction's operand bytes and its opcode are its length (spec/30_encoding.md R80). -/
def OperandLength.Statement (i : Instr) : Prop := i.operandBytes.length + 1 = i.length

theorem OperandLength.lda (o : Operand) :
    OperandLength.Statement (.lda o) := by
  cases o with
  | imm _ => rfl
  | mem m => cases m <;> rfl

theorem OperandLength.ldx (o : Operand) :
    OperandLength.Statement (.ldx o) := by
  cases o with
  | imm _ => rfl
  | mem m => cases m <;> rfl

theorem OperandLength.ldy (o : Operand) :
    OperandLength.Statement (.ldy o) := by
  cases o with
  | imm _ => rfl
  | mem m => cases m <;> rfl

theorem OperandLength.sta (m : MemMode) :
    OperandLength.Statement (.sta m) := by
  cases m <;> rfl

theorem OperandLength.stx (m : MemMode) :
    OperandLength.Statement (.stx m) := by
  cases m <;> rfl

theorem OperandLength.sty (m : MemMode) :
    OperandLength.Statement (.sty m) := by
  cases m <;> rfl

theorem OperandLength.stz (m : MemMode) :
    OperandLength.Statement (.stz m) := by
  cases m <;> rfl

theorem OperandLength.tax :
    OperandLength.Statement (.tax) := rfl

theorem OperandLength.tay :
    OperandLength.Statement (.tay) := rfl

theorem OperandLength.txa :
    OperandLength.Statement (.txa) := rfl

theorem OperandLength.tya :
    OperandLength.Statement (.tya) := rfl

theorem OperandLength.tsx :
    OperandLength.Statement (.tsx) := rfl

theorem OperandLength.txs :
    OperandLength.Statement (.txs) := rfl

theorem OperandLength.pha :
    OperandLength.Statement (.pha) := rfl

theorem OperandLength.phx :
    OperandLength.Statement (.phx) := rfl

theorem OperandLength.phy :
    OperandLength.Statement (.phy) := rfl

theorem OperandLength.php :
    OperandLength.Statement (.php) := rfl

theorem OperandLength.pla :
    OperandLength.Statement (.pla) := rfl

theorem OperandLength.plx :
    OperandLength.Statement (.plx) := rfl

theorem OperandLength.ply :
    OperandLength.Statement (.ply) := rfl

theorem OperandLength.plp :
    OperandLength.Statement (.plp) := rfl

theorem OperandLength.adc (o : Operand) :
    OperandLength.Statement (.adc o) := by
  cases o with
  | imm _ => rfl
  | mem m => cases m <;> rfl

theorem OperandLength.sbc (o : Operand) :
    OperandLength.Statement (.sbc o) := by
  cases o with
  | imm _ => rfl
  | mem m => cases m <;> rfl

theorem OperandLength.and (o : Operand) :
    OperandLength.Statement (.and o) := by
  cases o with
  | imm _ => rfl
  | mem m => cases m <;> rfl

theorem OperandLength.ora (o : Operand) :
    OperandLength.Statement (.ora o) := by
  cases o with
  | imm _ => rfl
  | mem m => cases m <;> rfl

theorem OperandLength.eor (o : Operand) :
    OperandLength.Statement (.eor o) := by
  cases o with
  | imm _ => rfl
  | mem m => cases m <;> rfl

theorem OperandLength.cmp (o : Operand) :
    OperandLength.Statement (.cmp o) := by
  cases o with
  | imm _ => rfl
  | mem m => cases m <;> rfl

theorem OperandLength.cpx (o : Operand) :
    OperandLength.Statement (.cpx o) := by
  cases o with
  | imm _ => rfl
  | mem m => cases m <;> rfl

theorem OperandLength.cpy (o : Operand) :
    OperandLength.Statement (.cpy o) := by
  cases o with
  | imm _ => rfl
  | mem m => cases m <;> rfl

theorem OperandLength.bit (o : Operand) :
    OperandLength.Statement (.bit o) := by
  cases o with
  | imm _ => rfl
  | mem m => cases m <;> rfl

theorem OperandLength.tsb (m : MemMode) :
    OperandLength.Statement (.tsb m) := by
  cases m <;> rfl

theorem OperandLength.trb (m : MemMode) :
    OperandLength.Statement (.trb m) := by
  cases m <;> rfl

theorem OperandLength.asl (o : RmwOperand) :
    OperandLength.Statement (.asl o) := by
  cases o with
  | acc => rfl
  | mem m => cases m <;> rfl

theorem OperandLength.lsr (o : RmwOperand) :
    OperandLength.Statement (.lsr o) := by
  cases o with
  | acc => rfl
  | mem m => cases m <;> rfl

theorem OperandLength.rol (o : RmwOperand) :
    OperandLength.Statement (.rol o) := by
  cases o with
  | acc => rfl
  | mem m => cases m <;> rfl

theorem OperandLength.ror (o : RmwOperand) :
    OperandLength.Statement (.ror o) := by
  cases o with
  | acc => rfl
  | mem m => cases m <;> rfl

theorem OperandLength.inc (o : RmwOperand) :
    OperandLength.Statement (.inc o) := by
  cases o with
  | acc => rfl
  | mem m => cases m <;> rfl

theorem OperandLength.dec (o : RmwOperand) :
    OperandLength.Statement (.dec o) := by
  cases o with
  | acc => rfl
  | mem m => cases m <;> rfl

theorem OperandLength.inx :
    OperandLength.Statement (.inx) := rfl

theorem OperandLength.iny :
    OperandLength.Statement (.iny) := rfl

theorem OperandLength.dex :
    OperandLength.Statement (.dex) := rfl

theorem OperandLength.dey :
    OperandLength.Statement (.dey) := rfl

theorem OperandLength.bcc (off : Byte) :
    OperandLength.Statement (.bcc off) := rfl

theorem OperandLength.bcs (off : Byte) :
    OperandLength.Statement (.bcs off) := rfl

theorem OperandLength.beq (off : Byte) :
    OperandLength.Statement (.beq off) := rfl

theorem OperandLength.bne (off : Byte) :
    OperandLength.Statement (.bne off) := rfl

theorem OperandLength.bmi (off : Byte) :
    OperandLength.Statement (.bmi off) := rfl

theorem OperandLength.bpl (off : Byte) :
    OperandLength.Statement (.bpl off) := rfl

theorem OperandLength.bvc (off : Byte) :
    OperandLength.Statement (.bvc off) := rfl

theorem OperandLength.bvs (off : Byte) :
    OperandLength.Statement (.bvs off) := rfl

theorem OperandLength.bra (off : Byte) :
    OperandLength.Statement (.bra off) := rfl

theorem OperandLength.jmp (t : JumpTarget) :
    OperandLength.Statement (.jmp t) := by
  cases t <;> rfl

theorem OperandLength.jsr (target : Addr) :
    OperandLength.Statement (.jsr target) := rfl

theorem OperandLength.rts :
    OperandLength.Statement (.rts) := rfl

theorem OperandLength.rti :
    OperandLength.Statement (.rti) := rfl

theorem OperandLength.brk (sig : Byte) :
    OperandLength.Statement (.brk sig) := rfl

theorem OperandLength.clc :
    OperandLength.Statement (.clc) := rfl

theorem OperandLength.sec :
    OperandLength.Statement (.sec) := rfl

theorem OperandLength.cli :
    OperandLength.Statement (.cli) := rfl

theorem OperandLength.sei :
    OperandLength.Statement (.sei) := rfl

theorem OperandLength.cld :
    OperandLength.Statement (.cld) := rfl

theorem OperandLength.sed :
    OperandLength.Statement (.sed) := rfl

theorem OperandLength.clv :
    OperandLength.Statement (.clv) := rfl

theorem OperandLength.nop :
    OperandLength.Statement (.nop) := rfl

theorem OperandLength.wai :
    OperandLength.Statement (.wai) := rfl

theorem OperandLength.stp :
    OperandLength.Statement (.stp) := rfl

theorem OperandLength.nop1 (op : Byte) :
    OperandLength.Statement (.nop1 op) := rfl

theorem OperandLength.nop2 (op : Byte) (b1 : Byte) :
    OperandLength.Statement (.nop2 op b1) := rfl

theorem OperandLength.nop3 (op : Byte) (w : Addr) :
    OperandLength.Statement (.nop3 op w) := rfl

theorem OperandLength.rmb0 (z : Byte) :
    OperandLength.Statement (.rmb0 z) := rfl

theorem OperandLength.rmb1 (z : Byte) :
    OperandLength.Statement (.rmb1 z) := rfl

theorem OperandLength.rmb2 (z : Byte) :
    OperandLength.Statement (.rmb2 z) := rfl

theorem OperandLength.rmb3 (z : Byte) :
    OperandLength.Statement (.rmb3 z) := rfl

theorem OperandLength.rmb4 (z : Byte) :
    OperandLength.Statement (.rmb4 z) := rfl

theorem OperandLength.rmb5 (z : Byte) :
    OperandLength.Statement (.rmb5 z) := rfl

theorem OperandLength.rmb6 (z : Byte) :
    OperandLength.Statement (.rmb6 z) := rfl

theorem OperandLength.rmb7 (z : Byte) :
    OperandLength.Statement (.rmb7 z) := rfl

theorem OperandLength.smb0 (z : Byte) :
    OperandLength.Statement (.smb0 z) := rfl

theorem OperandLength.smb1 (z : Byte) :
    OperandLength.Statement (.smb1 z) := rfl

theorem OperandLength.smb2 (z : Byte) :
    OperandLength.Statement (.smb2 z) := rfl

theorem OperandLength.smb3 (z : Byte) :
    OperandLength.Statement (.smb3 z) := rfl

theorem OperandLength.smb4 (z : Byte) :
    OperandLength.Statement (.smb4 z) := rfl

theorem OperandLength.smb5 (z : Byte) :
    OperandLength.Statement (.smb5 z) := rfl

theorem OperandLength.smb6 (z : Byte) :
    OperandLength.Statement (.smb6 z) := rfl

theorem OperandLength.smb7 (z : Byte) :
    OperandLength.Statement (.smb7 z) := rfl

theorem OperandLength.bbr0 (z : Byte) (off : Byte) :
    OperandLength.Statement (.bbr0 z off) := rfl

theorem OperandLength.bbr1 (z : Byte) (off : Byte) :
    OperandLength.Statement (.bbr1 z off) := rfl

theorem OperandLength.bbr2 (z : Byte) (off : Byte) :
    OperandLength.Statement (.bbr2 z off) := rfl

theorem OperandLength.bbr3 (z : Byte) (off : Byte) :
    OperandLength.Statement (.bbr3 z off) := rfl

theorem OperandLength.bbr4 (z : Byte) (off : Byte) :
    OperandLength.Statement (.bbr4 z off) := rfl

theorem OperandLength.bbr5 (z : Byte) (off : Byte) :
    OperandLength.Statement (.bbr5 z off) := rfl

theorem OperandLength.bbr6 (z : Byte) (off : Byte) :
    OperandLength.Statement (.bbr6 z off) := rfl

theorem OperandLength.bbr7 (z : Byte) (off : Byte) :
    OperandLength.Statement (.bbr7 z off) := rfl

theorem OperandLength.bbs0 (z : Byte) (off : Byte) :
    OperandLength.Statement (.bbs0 z off) := rfl

theorem OperandLength.bbs1 (z : Byte) (off : Byte) :
    OperandLength.Statement (.bbs1 z off) := rfl

theorem OperandLength.bbs2 (z : Byte) (off : Byte) :
    OperandLength.Statement (.bbs2 z off) := rfl

theorem OperandLength.bbs3 (z : Byte) (off : Byte) :
    OperandLength.Statement (.bbs3 z off) := rfl

theorem OperandLength.bbs4 (z : Byte) (off : Byte) :
    OperandLength.Statement (.bbs4 z off) := rfl

theorem OperandLength.bbs5 (z : Byte) (off : Byte) :
    OperandLength.Statement (.bbs5 z off) := rfl

theorem OperandLength.bbs6 (z : Byte) (off : Byte) :
    OperandLength.Statement (.bbs6 z off) := rfl

theorem OperandLength.bbs7 (z : Byte) (off : Byte) :
    OperandLength.Statement (.bbs7 z off) := rfl

end Sys2Proof.Laws
end

