-- ==== Sys2Proof/Laws/Sprite.lean ====
section
/-! SUPPORT. The sprite engine and the divider: what one write of a sprite does to RAM and to the collision buffer, that a chain
keeps RAM canonical, and the remainder of a signed divide. -/

namespace Sys2Proof.Machine

/-! ### One write of a sprite (R361, R364) -/

@[simp] theorem Canvas.store_ram (c : Canvas) (a : Addr) (v : Byte) : (c.store a v).ram = Memory.write c.ram a v := rfl
@[simp] theorem Canvas.store_coll (c : Canvas) (a : Addr) (v : Byte) : (c.store a v).coll = c.coll := rfl

theorem Canvas.store_wf {c : Canvas} (h : Memory.wf c.ram = true) (a : Addr) (v : Byte) : Memory.wf (c.store a v).ram = true :=
  Memory.write_wf h a v

theorem Canvas.orInto_wf {c : Canvas} (h : Memory.wf c.ram = true) (prev : Byte) (side : CollisionSide) :
    Memory.wf (c.orInto prev side).ram = true := by
  cases side with
  | entry i => exact h
  | byte a => exact Canvas.store_wf h a _

/-- An entry of the collision buffer after an occupant was OR'd into one side. -/
theorem Canvas.orInto_coll (prev : Byte) (c : Canvas) (side : CollisionSide) (i : Fin 16) :
    (c.orInto prev side).coll[i] = if side = .entry i then c.coll[i] ||| prev else c.coll[i] := by
  cases side with
  | entry j =>
    by_cases e : j = i
    · simp [Canvas.orInto, e]
    · have e' : ¬ j.val = i.val := fun h => e (Fin.ext h)
      simp [Canvas.orInto, e, e']
  | byte a => simp [Canvas.orInto]

/-- A byte of RAM after an occupant was OR'd into one side. -/
theorem Canvas.orInto_read {c : Canvas} (h : Memory.wf c.ram = true) (prev : Byte) (side : CollisionSide) (b : Addr) :
    Memory.read (c.orInto prev side).ram b =
      if side = .byte b then Memory.read c.ram b ||| prev else Memory.read c.ram b := by
  cases side with
  | entry j => simp [Canvas.orInto]
  | byte a =>
    simp only [Canvas.orInto, Canvas.store_ram, Memory.read_write h, CollisionSide.byte.injEq]
    by_cases e : b = a
    · simp [e]
    · simp [e, Ne.symm e]

/-- What a collision does to the collision buffer (R364). -/
theorem Canvas.collide_coll (c : Canvas) (k : Collision) (i : Fin 16) :
    (c.collide k).coll[i] =
      if i = k.slot then k.occupant
      else if k.side1 = .entry i ∨ k.side2 = .entry i then c.coll[i] ||| c.coll[k.slot]
      else c.coll[i] := by
  by_cases e : i = k.slot
  · simp [Canvas.collide, e]
  · have e' : k.slot.val ≠ i.val := fun h => e (Fin.ext h.symm)
    rw [if_neg e]
    refine ((Vector.getElem_set_ne k.slot.isLt i.isLt e').trans (Canvas.orInto_coll _ (c.orInto _ k.side1) k.side2 i)).trans ?_
    rw [Canvas.orInto_coll]
    by_cases h1 : k.side1 = .entry i <;> by_cases h3 : k.side2 = .entry i <;> simp [h1, h3, BitVec.or_assoc]

/-- What a collision does to RAM (R364). -/
theorem Canvas.collide_read {c : Canvas} (h : Memory.wf c.ram = true) (k : Collision) (b : Addr) :
    Memory.read (c.collide k).ram b =
      if k.side1 = .byte b ∨ k.side2 = .byte b then Memory.read c.ram b ||| c.coll[k.slot] else Memory.read c.ram b := by
  have h2 := Canvas.orInto_read (Canvas.orInto_wf h c.coll[k.slot] k.side1) c.coll[k.slot] k.side2 b
  rw [Canvas.orInto_read h] at h2
  refine h2.trans ?_
  by_cases h1 : k.side1 = .byte b <;> by_cases h3 : k.side2 = .byte b <;> simp [h1, h3, BitVec.or_assoc]

theorem Canvas.collide_wf {c : Canvas} (h : Memory.wf c.ram = true) (k : Collision) : Memory.wf (c.collide k).ram = true :=
  Canvas.orInto_wf (Canvas.orInto_wf h _ _) _ _

theorem Canvas.act_wf {c : Canvas} (h : Memory.wf c.ram = true) (number : BitVec 4) (x : SpriteAction) :
    Memory.wf (c.act number x).ram = true := by
  cases x with
  | write a v => exact Canvas.store_wf h a v
  | pixel a v k =>
    unfold Canvas.act
    dsimp only
    split
    · exact Canvas.store_wf h a v
    · exact Canvas.collide_wf (Canvas.store_wf h a v) k

/-- The collision buffer changes only when a pixel is drawn for a sprite whose collision number is not zero (R364). -/
theorem Canvas.act_coll_same (c : Canvas) {number : BitVec 4} {x : SpriteAction} (h : number = 0 ∨ x.isPixel = false) :
    (c.act number x).coll = c.coll := by
  cases x with
  | write a v => rfl
  | pixel a v k =>
    obtain rfl | h := h
    · rfl
    · cases h

/-- The same over all writes of a sprite. -/
theorem Canvas.foldl_act_coll_same (c : Canvas) {number : BitVec 4} {xs : List SpriteAction}
    (h : number = 0 ∨ ∀ x ∈ xs, x.isPixel = false) : (xs.foldl (Canvas.act number) c).coll = c.coll := by
  induction xs generalizing c with
  | nil => rfl
  | cons x xs ih =>
    rw [List.foldl_cons, ih _ (h.imp_right fun g y hy => g y (.tail _ hy)),
      Canvas.act_coll_same c (h.imp_right fun g => g x (.head _))]

theorem Canvas.foldl_act_wf {c : Canvas} (h : Memory.wf c.ram = true) (number : BitVec 4) (xs : List SpriteAction) :
    Memory.wf (xs.foldl (Canvas.act number) c).ram = true := by
  induction xs generalizing c with
  | nil => exact h
  | cons x xs ih => exact ih (Canvas.act_wf h number x)

/-! ### The chain -/

/-- The next pointer of an SCB and the state after it was processed. -/
def chainStep (q : Addr × State) : Addr × State := (nextScb q.2.ram q.1, renderSprite q.1 q.2)

/-- What a walk does, once (R361, R363): it processes the SCBs along the chain in turn, up to the first whose pointer is in page 0,
or, where there is none, as many as the cap allows. -/
theorem walkChain_spec (n : Nat) (a : Addr) (s : State) :
    ∃ j, 1 ≤ j ∧ j ≤ n + 1 ∧ walkChain (n + 1) a s = (chainStep^[j] (a, s)).2 ∧
      (∀ i, 0 < i → i < j → hiByte (chainStep^[i] (a, s)).1 ≠ 0) ∧ (hiByte (chainStep^[j] (a, s)).1 = 0 ∨ j = n + 1) := by
  induction n generalizing a s with
  | zero => exact ⟨1, le_refl _, le_refl _, by simp [walkChain, chainStep], by omega, .inr rfl⟩
  | succ n ih =>
    by_cases h : hiByte (nextScb s.ram a) = 0
    · refine ⟨1, le_refl _, by omega, ?_, by omega, .inl (by simpa [chainStep] using h)⟩
      rw [walkChain]
      simp [h, chainStep]
    · obtain ⟨j, h1, h2, h3, h4, h5⟩ := ih (nextScb s.ram a) (renderSprite a s)
      refine ⟨j + 1, by omega, by omega, ?_, ?_, h5.imp id (by omega)⟩
      · rw [walkChain]
        simp only [h, if_false]
        exact h3
      · intro i hi hij
        match i with
        | 1 => simpa [chainStep] using h
        | i + 2 => exact h4 (i + 1) (by omega) (by omega)


theorem renderSprite_wf {s : State} (h : Memory.wf s.ram = true) (a : Addr) : Memory.wf (renderSprite a s).ram = true :=
  Canvas.foldl_act_wf h _ _

theorem walkChain_wf {s : State} (k : Nat) (a : Addr) (h : Memory.wf s.ram = true) : Memory.wf (walkChain k a s).ram = true := by
  induction k generalizing a s with
  | zero => exact h
  | succ k ih =>
    unfold walkChain
    dsimp only
    split
    · exact renderSprite_wf h a
    · exact ih _ (renderSprite_wf h a)

theorem startSpriteEngine_wf {s : State} (h : Memory.wf s.ram = true) : Memory.wf (startSpriteEngine s).ram = true := by
  have h1 : Memory.wf (if hiByte s.suzy.scbadr = 0 then (s.setSuzy { s.suzy with busy := true, stall := 0 }).bumpFree
      else s.setSuzy { s.suzy with busy := true, stall := 0 }).ram = true := by
    split <;> exact h
  show Memory.wf (if firstScbRuns s then _ else _ : State).ram = true
  split
  · exact walkChain_wf _ _ h1
  · exact h1

/-! ### The divide (R366, R367) -/

/-- Both sign tests give one magnitude (R367). -/
theorem signMag_snd (test : MathSignTest) (v : BitVec 16) : (signMag test v).2 = v.abs := by
  cases test with
  | bit15 => simp only [signMag, BitVec.abs, BitVec.msb_eq_getLsbD_last, Nat.reduceSub]; rfl
  | minusOneBit15 =>
    by_cases h : v = 0x8000
    · subst h
      decide
    · by_cases h0 : v = 0
      · subst h0
        decide
      · have e : (v - 1).getLsbD 15 = v.msb := by
          rw [← BitVec.msb_eq_getLsbD_last (v - 1), BitVec.msb_eq_decide, BitVec.msb_eq_decide]
          simp only [decide_eq_decide]
          bv_omega
        simp only [signMag, e, BitVec.abs]
        rfl

/-- The remainder of a signed divide is that of an unsigned division. -/
theorem signedQuotient_mem (n : BitVec 32) (d : BitVec 16) : (signedQuotient n d).2 ∈ unsignedRemainders n d := by
  unfold signedQuotient
  dsimp only
  split
  · assumption
  · exact .head _

/-- Of operands that are not negative the remainder is the plain one. -/
theorem signedQuotient_nonneg {n : BitVec 32} {d : BitVec 16} (hn : n.msb = false) (hd : d.msb = false) :
    (signedQuotient n d).2 = n % d.setWidth 32 := by
  have h := signedQuotient_mem n d
  simpa [unsignedRemainders, BitVec.abs, hn, hd] using h

end Sys2Proof.Machine
end

