-- ==== Sys2Proof/Laws/Timers.lean ====
section
/-! SUPPORT. The timers, the audio channels and the interrupt controller: reading a timer back, the IRQ line, what one decrement
does. -/

namespace Sys2Proof.Machine

variable {s : State} {n m : Fin 8}

/-! ### One timer of the eight -/

/-- Storing what is there changes nothing. -/
theorem State.setTimer_same (s : State) (n : Fin 8) : s.setTimer n s.timers[n] = s := by
  simp [State.setTimer]

/-- The second of two stores to one timer wins. -/
theorem State.setTimer_setTimer (s : State) (n : Fin 8) (t u : Timer) : (s.setTimer n t).setTimer n u = s.setTimer n u := by
  simp [State.setTimer]

theorem State.setTimer_get_self (s : State) (n : Fin 8) (t : Timer) : (s.setTimer n t).timers[n] = t := by
  simp

theorem State.setTimer_get_other (s : State) (t : Timer) (h : m ≠ n) : (s.setTimer n t).timers[m] = s.timers[m] := by
  have : ¬ n.val = m.val := fun e => h (Fin.ext e.symm)
  simp [this]

theorem State.setChannel_get_self (s : State) (c : Fin 4) (ch : Channel) : (s.setChannel c ch).audio.channels[c] = ch := by
  simp

theorem State.setChannel_get_other {c d : Fin 4} (s : State) (ch : Channel) (h : d ≠ c) :
    (s.setChannel c ch).audio.channels[d] = s.audio.channels[d] := by
  have : ¬ c.val = d.val := fun e => h (Fin.ext e.symm)
  simp [this]

/-! ### The IRQ line (R34, R347) -/

/-- Bit `n` of `ENABLED` is bit 7 of `TnCTLA`. -/
theorem enabledMask_getLsbD (ts : Vector Timer 8) (n : Fin 8) :
    (enabledMask ts).getLsbD n.val = ts[n].ctla.getLsbD 7 := by
  have h0 : ∀ b7 b6 b5 b4 b3 b2 b1 b0 : Bool,
      let w := BitVec.ofBool b7 ++ BitVec.ofBool b6 ++ BitVec.ofBool b5 ++ BitVec.ofBool b4 ++ BitVec.ofBool b3
        ++ BitVec.ofBool b2 ++ BitVec.ofBool b1 ++ BitVec.ofBool b0
      w.getLsbD 0 = b0 ∧ w.getLsbD 1 = b1 ∧ w.getLsbD 2 = b2 ∧ w.getLsbD 3 = b3 ∧ w.getLsbD 4 = b4 ∧ w.getLsbD 5 = b5
        ∧ w.getLsbD 6 = b6 ∧ w.getLsbD 7 = b7 := by decide
  obtain ⟨e0, e1, e2, e3, e4, e5, e6, e7⟩ := h0 (ts[7].ctla.getLsbD 7) (ts[6].ctla.getLsbD 7) (ts[5].ctla.getLsbD 7)
    (ts[4].ctla.getLsbD 7) (ts[3].ctla.getLsbD 7) (ts[2].ctla.getLsbD 7) (ts[1].ctla.getLsbD 7) (ts[0].ctla.getLsbD 7)
  match n with
  | 0 => exact e0
  | 1 => exact e1
  | 2 => exact e2
  | 3 => exact e3
  | 4 => exact e4
  | 5 => exact e5
  | 6 => exact e6
  | 7 => exact e7

/-- The line is asserted iff some timer's interrupt is both pending and enabled. -/
theorem irqAsserted_iff (s : State) :
    s.irqAsserted = true ↔ ∃ n : Fin 8, s.pending.getLsbD n.val = true ∧ s.timers[n].ctla.getLsbD 7 = true := by
  unfold State.irqAsserted
  rw [bne_iff_ne, ne_eq, BitVec.eq_of_getLsbD_eq_iff, not_forall]
  constructor
  · rintro ⟨i, h⟩
    simp only [Classical.not_imp, BitVec.getLsbD_and] at h
    obtain ⟨hi, h⟩ := h
    refine ⟨⟨i, hi⟩, ?_⟩
    have e := enabledMask_getLsbD s.timers ⟨i, hi⟩
    simp only at e
    rw [e] at h
    simpa using h
  · rintro ⟨n, h1, h2⟩
    refine ⟨n.val, ?_⟩
    simp only [Classical.not_imp, BitVec.getLsbD_and, enabledMask_getLsbD, h1, h2]
    exact ⟨n.isLt, by simp⟩

/-- Recomputing writes the line and nothing else. -/
@[simp] theorem recomputeIrq_irqLine (s : State) : (recomputeIrq s).irqLine = s.irqAsserted := rfl
@[simp] theorem recomputeIrq_timers (s : State) : (recomputeIrq s).timers = s.timers := rfl
@[simp] theorem recomputeIrq_pending (s : State) : (recomputeIrq s).pending = s.pending := rfl
@[simp] theorem recomputeIrq_video (s : State) : (recomputeIrq s).video = s.video := rfl
@[simp] theorem recomputeIrq_audio (s : State) : (recomputeIrq s).audio = s.audio := rfl

/-- A request leaves the timers alone. -/
@[simp] theorem raisePending_timers (n : Fin 8) (s : State) : (raisePending n s).timers = s.timers := by
  unfold raisePending
  split <;> rfl

/-- A request sets the timer's own bit if the timer's interrupt is enabled, and no other bit (R344). -/
theorem raisePending_pending (n : Fin 8) (s : State) :
    (raisePending n s).pending = if s.timers[n].ctla.getLsbD 7 then s.pending ||| ((1 : Byte) <<< n.val) else s.pending := by
  unfold raisePending
  split <;> rfl

/-- A request, once: with the timer's interrupt enabled its bit is pending and the line asserted, else nothing happens. -/
theorem raisePending_eq (n : Fin 8) (s : State) :
    raisePending n s =
      if s.timers[n].ctla.getLsbD 7 then { s with pending := s.pending ||| ((1 : Byte) <<< n.val), irqLine := true } else s := by
  unfold raisePending
  split
  · have e : ({ s with pending := s.pending ||| ((1 : Byte) <<< n.val) } : State).irqAsserted = true := by
      rw [irqAsserted_iff]
      exact ⟨n, by simp, ‹_›⟩
    simp only [setPending, recomputeIrq, e]
    rfl
  · rfl

/-- No timer is its own successor (R345). -/
theorem timerSucc_ne : ∀ n m : Fin 8, timerSucc n = some m → m ≠ n := by decide

@[simp] theorem videoHook_timers (n : Fin 8) (s : State) : (videoHook n s).timers = s.timers := by
  unfold videoHook
  split
  · rfl
  · split <;> rfl

/-! ### One decrement (R344) -/

/-- A count that is not zero goes down by one. -/
theorem decrementTimer_pos (fuel : Nat) (h : s.timers[n].cnt ≠ 0) :
    decrementTimer (fuel + 1) n s = s.setTimer n { s.timers[n] with cnt := s.timers[n].cnt - 1 } := by
  unfold decrementTimer
  dsimp only
  rw [if_pos h]

/-- A count of zero underflows: the timer is marked and reloaded, its interrupt requested, its hook run, the successor
decremented. -/
theorem decrementTimer_zero (fuel : Nat) (h : s.timers[n].cnt = 0) :
    decrementTimer (fuel + 1) n s =
      let s1 := videoHook n (raisePending n (s.setTimer n s.timers[n].underflow))
      let s2 :=
        match timerSucc n with
        | some m =>
          if clockEnabled s1.timers[m].ctla && clockLinked s1.timers[m].ctla then decrementTimer fuel m s1 else s1
        | none => s1
      if n = 7 then audioCascade 0 s2 else s2 := by
  rw [decrementTimer]
  dsimp only
  rw [if_neg (not_not.mpr h)]
  all_goals cases timerSucc n <;> rfl

/-- One period of a timer whose count is not zero. -/
theorem advanceTimer_pos (h : s.timers[n].cnt ≠ 0) :
    advanceTimer n s =
      s.setTimer n
        { s.timers[n] with cnt := s.timers[n].cnt - 1, last := s.timers[n].last + clockPeriod s.timers[n].ctla } := by
  unfold advanceTimer
  rw [decrementTimer_pos _ (by simpa using h), State.setTimer_setTimer]
  simp

/-- A stopped or linked timer keeps up without counting (R343). -/
theorem tickTimer_stopped (now : Nat) (h : (clockEnabled s.timers[n].ctla && !clockLinked s.timers[n].ctla) = false) :
    tickTimer now s n = s.setTimer n { s.timers[n] with last := now } := by
  unfold tickTimer
  dsimp only
  rw [if_neg (by rw [h]; exact Bool.false_ne_true)]

/-- The period in numbers (R341). -/
theorem clockPeriod_eq (ctl : Byte) : clockPeriod ctl = 4 * 2 ^ (ctl.toNat % 8) := by
  simp [clockPeriod, Nat.shiftLeft_eq]

theorem clockLinked_iff (ctl : Byte) : clockLinked ctl = true ↔ ctl.toNat % 8 = 7 := by
  simp [clockLinked, ← BitVec.toNat_inj]

/-- Enabled and linked: clocked by the predecessor's underflow. -/
theorem clocked_iff (ctl : Byte) :
    (clockEnabled ctl && clockLinked ctl) = true ↔ ctl.getLsbD 3 = true ∧ ctl.toNat % 8 = 7 := by
  simp [clockEnabled, ← clockLinked_iff]

/-! ### One channel (R371) -/

variable {c e : Fin 4}

/-- A count that is not zero goes down by one. -/
theorem decrementChannel_pos (fuel : Nat) (h : s.audio.channels[c].cnt ≠ 0) :
    decrementChannel (fuel + 1) c s = s.setChannel c { s.audio.channels[c] with cnt := s.audio.channels[c].cnt - 1 } := by
  rw [decrementChannel]
  dsimp only
  rw [if_pos h]

/-- The last channel's underflow cascades no further. -/
theorem decrementChannel_zero_last (fuel : Nat) (h : s.audio.channels[c].cnt = 0) (hc : ¬ c.val + 1 < 4) :
    decrementChannel (fuel + 1) c s = s.setChannel c s.audio.channels[c].underflow := by
  rw [decrementChannel]
  dsimp only
  rw [if_neg (not_not.mpr h), dif_neg hc]

/-- Another channel's underflow decrements the next channel if that is enabled and linked. -/
theorem decrementChannel_zero (fuel : Nat) (h : s.audio.channels[c].cnt = 0) (he : e.val = c.val + 1) :
    decrementChannel (fuel + 1) c s =
      if clockEnabled s.audio.channels[e].ctl && clockLinked s.audio.channels[e].ctl then
        decrementChannel fuel e (s.setChannel c s.audio.channels[c].underflow)
      else s.setChannel c s.audio.channels[c].underflow := by
  have hlt : c.val + 1 < 4 := he ▸ e.isLt
  obtain rfl : e = ⟨c.val + 1, hlt⟩ := Fin.ext he
  have hne : (⟨c.val + 1, hlt⟩ : Fin 4) ≠ c := fun q => Nat.succ_ne_self _ (congrArg Fin.val q)
  rw [decrementChannel]
  dsimp only
  rw [if_neg (not_not.mpr h), dif_pos hlt, State.setChannel_get_other _ _ hne]

/-- One period of a channel whose count is not zero. -/
theorem advanceChannel_pos (h : s.audio.channels[c].cnt ≠ 0) :
    advanceChannel c s =
      s.setChannel c
        { s.audio.channels[c] with
          cnt := s.audio.channels[c].cnt - 1
          last := s.audio.channels[c].last + clockPeriod s.audio.channels[c].ctl } := by
  unfold advanceChannel
  rw [decrementChannel_pos _ (by rw [State.setChannel_get_self]; exact h), State.setChannel_get_self]
  simp [State.setChannel]

/-- A stopped or linked channel keeps up without counting. -/
theorem tickChannel_stopped (now : Nat)
    (h : (clockEnabled s.audio.channels[c].ctl && !clockLinked s.audio.channels[c].ctl) = false) :
    tickChannel now s c = s.setChannel c { s.audio.channels[c] with last := now } := by
  unfold tickChannel
  dsimp only
  rw [if_neg (by rw [h]; exact Bool.false_ne_true)]

end Sys2Proof.Machine
end

