-- ==== Sys2Proof/Tests/Slice0.lean ====
section
/-! SUPPORT. Tests: the well-formedness smoke, a written-out word for every constructor, one or two steps of every instruction
against the vectors of spec/95_test_vectors.md (named in each comment; where it has none, worked by hand from the rule), and a
witness for the hypotheses of every statement. -/

namespace Sys2Proof.Tests

open Sys2Proof Sys2Proof.Machine

set_option maxRecDepth 20000

/-! ### Helpers -/

/-- The conventions of spec/95_test_vectors.md: every overlay hidden, RAM zero, flags 0, `S = 0xFF`, `PC = 0x1000`. -/
def start : State :=
  { State.reset with
    pc := 0x1000, sp := 0xFF, mapctl := 0x0F, cyc := 0, bus := []
    p := { n := false, v := false, d := false, i := false, z := false, c := false }
    timers := Vector.replicate 8 (Timer.afterReset 0)
    audio := { channels := Vector.replicate 4 (Channel.afterReset 0), stereo := 0, pan := 0 } }

/-- The same with bytes in RAM, given in rising order of address. -/
def holding (cells : List Host.Cell) (s : State) : State := { s with ram := cells }

/-- Flags from six digits `NVDIZC`. -/
def flags (n v d i z c : Nat) : Flags := { n := n == 1, v := v == 1, d := d == 1, i := i == 1, z := z == 1, c := c == 1 }

/-- The outcome is a next state with the property. -/
def gives (o : Host.Outcome State Fault Refusal) (f : State → Bool) : Bool :=
  match o with
  | .next t => f t
  | .fault _ => false
  | .refused _ => false

/-- The outcome is a fault with the property. -/
def fails (o : Host.Outcome State Fault Refusal) (f : Fault → Bool) : Bool :=
  match o with
  | .next _ => false
  | .fault e => f e
  | .refused _ => false

/-- The bytes are exactly the instruction's. -/
def decodes (bitops : Bool) (bytes : List Byte) (i : Instr) : Bool :=
  match decode bitops bytes with
  | .ok (j, rest) => j == i && rest.isEmpty
  | .error _ => false

/-- No instruction is read, for this reason. -/
def rejects (bitops : Bool) (bytes : List Byte) (e : DecodeError) : Bool :=
  match decode bitops bytes with
  | .ok _ => false
  | .error e' => e' == e

/-- A byte of RAM. -/
def at0 (t : State) (a : Addr) : Byte := Memory.read t.ram a

/-- The instructions take this many cycles and leave this property. -/
def takes (i : Instr) (s : State) (n : Nat) (f : State → Bool) : Bool :=
  gives (exec i s) fun t => f t && t.cyc == s.cyc + n && t.bus.length == s.bus.length + n

/-! ### Well-formedness: each check refuses an ill-formed term (spec/30_encoding.md R84 to R86) -/

theorem test_wf_alu_zpy : Instr.wf false (.lda (.mem (.zpy 0))) = false := by decide

theorem test_wf_ldx_zpx : Instr.wf false (.ldx (.mem (.zpx 0))) = false := by decide

theorem test_wf_ldy_izp : Instr.wf false (.ldy (.mem (.izp 0))) = false := by decide

theorem test_wf_sta_zpy : Instr.wf false (.sta (.zpy 0)) = false := by decide

theorem test_wf_stx_abx : Instr.wf false (.stx (.abx 0)) = false := by decide

theorem test_wf_sty_abx : Instr.wf false (.sty (.abx 0)) = false := by decide

theorem test_wf_stz_izy : Instr.wf false (.stz (.izy 0)) = false := by decide

theorem test_wf_adc_zpy : Instr.wf false (.adc (.mem (.zpy 0))) = false := by decide

theorem test_wf_cpx_zpx : Instr.wf false (.cpx (.mem (.zpx 0))) = false := by decide

theorem test_wf_bit_aby : Instr.wf false (.bit (.mem (.aby 0))) = false := by decide

theorem test_wf_tsb_abx : Instr.wf false (.tsb (.abx 0)) = false := by decide

theorem test_wf_asl_izx : Instr.wf false (.asl (.mem (.izx 0))) = false := by decide

theorem test_wf_inc_zpy : Instr.wf false (.inc (.mem (.zpy 0))) = false := by decide

theorem test_wf_nop1_of_nop : Instr.wf false (.nop1 0xEA) = false := by decide

theorem test_wf_nop1_of_wai : Instr.wf false (.nop1 0xCB) = false := by decide

theorem test_wf_nop1_under_bitops : Instr.wf true (.nop1 0x07) = false := by decide

theorem test_wf_nop2_of_nop : Instr.wf false (.nop2 0xEA 0) = false := by decide

theorem test_wf_nop3_of_jmp : Instr.wf false (.nop3 0x4C 0) = false := by decide

theorem test_wf_rmb_without_bitops : Instr.wf false (.rmb3 0x10) = false := by decide

theorem test_wf_bbs_without_bitops : Instr.wf false (.bbs7 0x20 0xFD) = false := by decide

/-! ### Decoding: a word of every constructor, from spec/30_encoding.md R83's table -/

theorem test_decode_loads :
    decodes false [0xA9, 0x80] (.lda (.imm 0x80)) = true ∧
    decodes false [0xB1, 0x40] (.lda (.mem (.izy 0x40))) = true ∧
    decodes false [0xB2, 0xFF] (.lda (.mem (.izp 0xFF))) = true ∧
    decodes false [0xA1, 0xFE] (.lda (.mem (.izx 0xFE))) = true ∧
    decodes false [0xB9, 0x34, 0x12] (.lda (.mem (.aby 0x1234))) = true ∧
    decodes false [0xB6, 0xFF] (.ldx (.mem (.zpy 0xFF))) = true ∧
    decodes false [0xBC, 0x34, 0x12] (.ldy (.mem (.abx 0x1234))) = true := by decide

theorem test_decode_stores :
    decodes false [0x9D, 0x00, 0x20] (.sta (.abx 0x2000)) = true ∧
    decodes false [0x96, 0x10] (.stx (.zpy 0x10)) = true ∧
    decodes false [0x94, 0x10] (.sty (.zpx 0x10)) = true ∧
    decodes false [0x9C, 0x34, 0x12] (.stz (.abs 0x1234)) = true ∧
    decodes false [0x64, 0x10] (.stz (.zp 0x10)) = true := by decide

theorem test_decode_transfers :
    decodes false [0xAA] (.tax) = true ∧
    decodes false [0xA8] (.tay) = true ∧
    decodes false [0x8A] (.txa) = true ∧
    decodes false [0x98] (.tya) = true ∧
    decodes false [0xBA] (.tsx) = true ∧
    decodes false [0x9A] (.txs) = true := by decide

theorem test_decode_stack :
    decodes false [0x48] (.pha) = true ∧
    decodes false [0xDA] (.phx) = true ∧
    decodes false [0x5A] (.phy) = true ∧
    decodes false [0x08] (.php) = true ∧
    decodes false [0x68] (.pla) = true ∧
    decodes false [0xFA] (.plx) = true ∧
    decodes false [0x7A] (.ply) = true ∧
    decodes false [0x28] (.plp) = true := by decide

theorem test_decode_alu :
    decodes false [0x75, 0x40] (.adc (.mem (.zpx 0x40))) = true ∧
    decodes false [0xE9, 0x01] (.sbc (.imm 0x01)) = true ∧
    decodes false [0x32, 0x10] (.and (.mem (.izp 0x10))) = true ∧
    decodes false [0x09, 0x80] (.ora (.imm 0x80)) = true ∧
    decodes false [0x4D, 0x34, 0x12] (.eor (.mem (.abs 0x1234))) = true ∧
    decodes false [0xD1, 0x40] (.cmp (.mem (.izy 0x40))) = true ∧
    decodes false [0xE4, 0x10] (.cpx (.mem (.zp 0x10))) = true ∧
    decodes false [0xCC, 0x34, 0x12] (.cpy (.mem (.abs 0x1234))) = true ∧
    decodes false [0x89, 0xC0] (.bit (.imm 0xC0)) = true ∧
    decodes false [0x3C, 0x34, 0x12] (.bit (.mem (.abx 0x1234))) = true ∧
    decodes false [0x04, 0x20] (.tsb (.zp 0x20)) = true ∧
    decodes false [0x1C, 0x00, 0x30] (.trb (.abs 0x3000)) = true := by decide

theorem test_decode_rmw :
    decodes false [0x0A] (.asl .acc) = true ∧
    decodes false [0x1E, 0xFF, 0x20] (.asl (.mem (.abx 0x20FF))) = true ∧
    decodes false [0x46, 0x10] (.lsr (.mem (.zp 0x10))) = true ∧
    decodes false [0x36, 0x10] (.rol (.mem (.zpx 0x10))) = true ∧
    decodes false [0x6E, 0x34, 0x12] (.ror (.mem (.abs 0x1234))) = true ∧
    decodes false [0x1A] (.inc .acc) = true ∧
    decodes false [0xE6, 0x10] (.inc (.mem (.zp 0x10))) = true ∧
    decodes false [0x3A] (.dec .acc) = true ∧
    decodes false [0xDE, 0x34, 0x12] (.dec (.mem (.abx 0x1234))) = true ∧
    decodes false [0xE8] (.inx) = true ∧
    decodes false [0xC8] (.iny) = true ∧
    decodes false [0xCA] (.dex) = true ∧
    decodes false [0x88] (.dey) = true := by decide

theorem test_decode_control :
    decodes false [0x90, 0x00] (.bcc 0x00) = true ∧
    decodes false [0xB0, 0xFC] (.bcs 0xFC) = true ∧
    decodes false [0xF0, 0xFE] (.beq 0xFE) = true ∧
    decodes false [0xD0, 0x10] (.bne 0x10) = true ∧
    decodes false [0x30, 0x10] (.bmi 0x10) = true ∧
    decodes false [0x10, 0x10] (.bpl 0x10) = true ∧
    decodes false [0x50, 0x10] (.bvc 0x10) = true ∧
    decodes false [0x70, 0x10] (.bvs 0x10) = true ∧
    decodes false [0x80, 0x7F] (.bra 0x7F) = true ∧
    decodes false [0x4C, 0x34, 0x12] (.jmp (.abs 0x1234)) = true ∧
    decodes false [0x6C, 0xFF, 0x12] (.jmp (.ind 0x12FF)) = true ∧
    decodes false [0x7C, 0x00, 0x30] (.jmp (.iax 0x3000)) = true ∧
    decodes false [0x20, 0x00, 0x30] (.jsr 0x3000) = true ∧
    decodes false [0x60] (.rts) = true ∧
    decodes false [0x40] (.rti) = true ∧
    decodes false [0x00, 0xEA] (.brk 0xEA) = true := by decide

theorem test_decode_system :
    decodes false [0x18] (.clc) = true ∧
    decodes false [0x38] (.sec) = true ∧
    decodes false [0x58] (.cli) = true ∧
    decodes false [0x78] (.sei) = true ∧
    decodes false [0xD8] (.cld) = true ∧
    decodes false [0xF8] (.sed) = true ∧
    decodes false [0xB8] (.clv) = true ∧
    decodes false [0xEA] (.nop) = true ∧
    decodes false [0xCB] (.wai) = true ∧
    decodes false [0xDB] (.stp) = true ∧
    decodes false [0x03] (.nop1 0x03) = true ∧
    decodes false [0xF7] (.nop1 0xF7) = true ∧
    decodes false [0xC2, 0xFF] (.nop2 0xC2 0xFF) = true ∧
    decodes false [0x5C, 0x34, 0x12] (.nop3 0x5C 0x1234) = true := by decide

theorem test_decode_rmb_smb :
    decodes true [0x07, 0x10] (.rmb0 0x10) = true ∧
    decodes true [0x17, 0x10] (.rmb1 0x10) = true ∧
    decodes true [0x27, 0x10] (.rmb2 0x10) = true ∧
    decodes true [0x37, 0x10] (.rmb3 0x10) = true ∧
    decodes true [0x47, 0x10] (.rmb4 0x10) = true ∧
    decodes true [0x57, 0x10] (.rmb5 0x10) = true ∧
    decodes true [0x67, 0x10] (.rmb6 0x10) = true ∧
    decodes true [0x77, 0x10] (.rmb7 0x10) = true ∧
    decodes true [0x87, 0x10] (.smb0 0x10) = true ∧
    decodes true [0x97, 0x10] (.smb1 0x10) = true ∧
    decodes true [0xA7, 0x10] (.smb2 0x10) = true ∧
    decodes true [0xB7, 0x10] (.smb3 0x10) = true ∧
    decodes true [0xC7, 0x10] (.smb4 0x10) = true ∧
    decodes true [0xD7, 0x10] (.smb5 0x10) = true ∧
    decodes true [0xE7, 0x10] (.smb6 0x10) = true ∧
    decodes true [0xF7, 0x10] (.smb7 0x10) = true := by decide

theorem test_decode_bbr_bbs :
    decodes true [0x0F, 0x20, 0x05] (.bbr0 0x20 0x05) = true ∧
    decodes true [0x1F, 0x20, 0x05] (.bbr1 0x20 0x05) = true ∧
    decodes true [0x2F, 0x20, 0x05] (.bbr2 0x20 0x05) = true ∧
    decodes true [0x3F, 0x20, 0x05] (.bbr3 0x20 0x05) = true ∧
    decodes true [0x4F, 0x20, 0x05] (.bbr4 0x20 0x05) = true ∧
    decodes true [0x5F, 0x20, 0x05] (.bbr5 0x20 0x05) = true ∧
    decodes true [0x6F, 0x20, 0x05] (.bbr6 0x20 0x05) = true ∧
    decodes true [0x7F, 0x20, 0x05] (.bbr7 0x20 0x05) = true ∧
    decodes true [0x8F, 0x20, 0xFD] (.bbs0 0x20 0xFD) = true ∧
    decodes true [0x9F, 0x20, 0xFD] (.bbs1 0x20 0xFD) = true ∧
    decodes true [0xAF, 0x20, 0xFD] (.bbs2 0x20 0xFD) = true ∧
    decodes true [0xBF, 0x20, 0xFD] (.bbs3 0x20 0xFD) = true ∧
    decodes true [0xCF, 0x20, 0xFD] (.bbs4 0x20 0xFD) = true ∧
    decodes true [0xDF, 0x20, 0xFD] (.bbs5 0x20 0xFD) = true ∧
    decodes true [0xEF, 0x20, 0xFD] (.bbs6 0x20 0xFD) = true ∧
    decodes true [0xFF, 0x20, 0xFD] (.bbs7 0x20 0xFD) = true := by decide

theorem test_decode_rejects : rejects false [] .noOpcode = true ∧ rejects false [0xA9] (.missingOperand 0xA9) = true := by
  decide

theorem test_table_word_rmb : decodeTableWord 16 0x1037 = some (.rmb3 0x10) ∧ decodeTableWord 8 0x37 = some (.nop1 0x37) := by
  decide

/-! ### Instructions, one step each (spec/95_test_vectors.md; `t` is the state after) -/

/-- LS3: the indexed address wraps inside page 0. -/
theorem test_lda_zero_page_wraps : takes (.lda (.mem (.zpx 0xF0)))
    ({ start with x := 0x20, ram := [(0x10, 0x7F)] }) 4 (fun t => t.a == 0x7F && t.p == flags 0 0 0 0 0 0) = true := by decide

/-- LS8: the dummy read of a crossed page. -/
theorem test_lda_indirect_indexed : takes (.lda (.mem (.izy 0x40)))
    ({ start with y := 0x10, ram := [(0x40, 0xF8), (0x41, 0x12), (0x1308, 0x77)] }) 6 (fun t => t.a == 0x77 && t.bus[1]? == some (.read .dummyRead 0x1208 0)) = true := by decide

/-- LS12. -/
theorem test_ldx_wraps : takes (.ldx (.mem (.zpy 0xFF)))
    ({ start with y := 2, ram := [(0x1, 0x80)] }) 4 (fun t => t.x == 0x80 && t.p.n) = true := by decide

/-- As LS1, by R132. -/
theorem test_ldy_immediate_zero : takes (.ldy (.imm 0))
    ({ start with y := 0x55, p := flags 1 0 0 0 0 0 }) 2 (fun t => t.y == 0 && t.p == flags 0 0 0 0 1 0 && t.pc == 0x1002) = true := by decide

/-- LS7. -/
theorem test_sta_always_pays : takes (.sta (.abx 0x2000))
    ({ start with a := 0x11 }) 5 (fun t => at0 t 0x2000 == 0x11) = true := by decide

/-- LS14: the register is written, the RAM under it is not. -/
theorem test_sta_mapctl : takes (.sta (.abs 0xFFF9))
    ({ start with a := 0, ram := [(0xFFF9, 0x33)] }) 4 (fun t => t.mapctl == 0 && at0 t 0xFFF9 == 0x33) = true := by decide

/-- By R134, R106: `0xFF + 2` is address 1. -/
theorem test_stx_wraps : takes (.stx (.zpy 0xFF))
    ({ start with x := 0x9C, y := 2 }) 4 (fun t => at0 t 1 == 0x9C && at0 t 0x101 == 0) = true := by decide

/-- By R135. -/
theorem test_sty_absolute : takes (.sty (.abs 0x3000))
    ({ start with y := 0x5A }) 4 (fun t => at0 t 0x3000 == 0x5A) = true := by decide

/-- LS13. -/
theorem test_stz_no_flag : takes (.stz (.zp 0x10))
    ({ start with ram := [(0x10, 0xFF)] }) 3 (fun t => at0 t 0x10 == 0 && !t.p.z) = true := by decide

/-- LS15. -/
theorem test_tax : takes (.tax)
    ({ start with x := 0x7F }) 2 (fun t => t.x == 0 && t.p.z) = true := by decide

/-- By R138. -/
theorem test_tay : takes (.tay)
    ({ start with a := 0x80 }) 2 (fun t => t.y == 0x80 && t.p.n && t.a == 0x80) = true := by decide

/-- By R139. -/
theorem test_txa : takes (.txa)
    ({ start with x := 0x01, p := flags 0 0 0 0 1 0 }) 2 (fun t => t.a == 0x01 && !t.p.z) = true := by decide

/-- By R140. -/
theorem test_tya : takes (.tya)
    ({ start with y := 0xFF }) 2 (fun t => t.a == 0xFF && t.p.n) = true := by decide

/-- LS17. -/
theorem test_tsx : takes (.tsx)
    ({ start with sp := 0x80 }) 2 (fun t => t.x == 0x80 && t.p.n) = true := by decide

/-- LS16. -/
theorem test_txs_no_flag : takes (.txs)
    (start) 2 (fun t => t.sp == 0 && !t.p.z) = true := by decide

/-- LS18. -/
theorem test_pha_wraps : takes (.pha)
    ({ start with a := 0x42, sp := 0 }) 3 (fun t => at0 t 0x100 == 0x42 && t.sp == 0xFF) = true := by decide

/-- LS23. -/
theorem test_phx : takes (.phx)
    ({ start with x := 0x9C }) 3 (fun t => at0 t 0x1FF == 0x9C && t.sp == 0xFE) = true := by decide

/-- By R145. -/
theorem test_phy : takes (.phy)
    ({ start with y := 0x31, sp := 0xFD }) 3 (fun t => at0 t 0x1FD == 0x31 && t.sp == 0xFC) = true := by decide

/-- LS20: bits 5 and 4 are pushed as 1. -/
theorem test_php : takes (.php)
    ({ start with p := flags 0 0 0 1 1 1 }) 3 (fun t => at0 t 0x1FF == 0x37 && t.sp == 0xFE) = true := by decide

/-- LS19. -/
theorem test_pla_wraps : takes (.pla)
    ({ start with ram := [(0x100, 0x80)] }) 4 (fun t => t.a == 0x80 && t.p.n && t.sp == 0) = true := by decide

/-- By R148. -/
theorem test_plx : takes (.plx)
    ({ start with sp := 0xFE, x := 5 }) 4 (fun t => t.x == 0 && t.p.z && t.sp == 0xFF) = true := by decide

/-- LS23. -/
theorem test_ply : takes (.ply)
    ({ start with sp := 0xFE, ram := [(0x1FF, 0x9C)] }) 4 (fun t => t.y == 0x9C && t.p.n && t.sp == 0xFF) = true := by decide

/-- LS21. -/
theorem test_plp_drops_two_bits : takes (.plp)
    ({ start with sp := 0xFE, ram := [(0x1FF, 0xFF)] }) 4 (fun t => t.p == flags 1 1 1 1 1 1 && t.p.getStatus == 0xEF) = true := by decide

/-- AL1. -/
theorem test_adc_overflow : takes (.adc (.imm 0x01))
    ({ start with a := 0x7F }) 2 (fun t => t.a == 0x80 && t.p == flags 1 1 0 0 0 0) = true := by decide

/-- AL9, `V` left open: the carry out of 99 and `Z` from the decimal result. -/
theorem test_adc_decimal : takes (.adc (.imm 0x01))
    ({ start with a := 0x99, p := flags 0 0 1 0 0 0 }) 3 (fun t => t.a == 0 && t.p.c && t.p.z && !t.p.n) = true := by decide

/-- AL5. -/
theorem test_sbc_overflow : takes (.sbc (.imm 0x01))
    ({ start with a := 0x80, p := flags 0 0 0 0 0 1 }) 2 (fun t => t.a == 0x7F && t.p == flags 0 1 0 0 0 1) = true := by decide

/-- AL13, `V` left open. -/
theorem test_sbc_decimal_borrow : takes (.sbc (.imm 0x01))
    ({ start with p := flags 0 0 1 0 0 1 }) 3 (fun t => t.a == 0x99 && !t.p.c && t.p.n) = true := by decide

/-- AL17. -/
theorem test_and : takes (.and (.imm 0x0F))
    ({ start with a := 0xF0, p := flags 0 1 0 0 0 1 }) 2 (fun t => t.a == 0 && t.p == flags 0 1 0 0 1 1) = true := by decide

/-- AL18. -/
theorem test_ora : takes (.ora (.imm 0x80))
    ({ start with a := 0x01 }) 2 (fun t => t.a == 0x81 && t.p.n) = true := by decide

/-- AL19. -/
theorem test_eor : takes (.eor (.imm 0xFF))
    ({ start with a := 0xFF }) 2 (fun t => t.a == 0 && t.p.z) = true := by decide

/-- AL21. -/
theorem test_cmp_below : takes (.cmp (.imm 0x41))
    ({ start with a := 0x40 }) 2 (fun t => t.a == 0x40 && t.p == flags 1 0 0 0 0 0) = true := by decide

/-- AL24: binary, and no extra cycle. -/
theorem test_cmp_decimal : takes (.cmp (.imm 0x10))
    ({ start with a := 0x10, p := flags 0 0 1 0 0 0 }) 2 (fun t => t.p == flags 0 0 1 0 1 1) = true := by decide

/-- AL23. -/
theorem test_cpx : takes (.cpx (.imm 0xFF))
    (start) 2 (fun t => t.p == flags 0 0 0 0 0 0) = true := by decide

/-- By R181. -/
theorem test_cpy : takes (.cpy (.imm 0x10))
    ({ start with y := 0x10 }) 2 (fun t => t.p == flags 0 0 0 0 1 1) = true := by decide

/-- AL25: only `Z`. -/
theorem test_bit_immediate : takes (.bit (.imm 0xC0))
    (start) 2 (fun t => t.p == flags 0 0 0 0 1 0) = true := by decide

/-- AL26. -/
theorem test_bit_memory : takes (.bit (.mem (.zp 0x10)))
    ({ start with ram := [(0x10, 0xC0)] }) 3 (fun t => t.p == flags 1 1 0 0 1 0) = true := by decide

/-- AL28. -/
theorem test_tsb : takes (.tsb (.zp 0x20))
    ({ start with a := 0x81, ram := [(0x20, 0x0F)] }) 5 (fun t => !t.p.z && at0 t 0x20 == 0x8F) = true := by decide

/-- AL29. -/
theorem test_trb : takes (.trb (.abs 0x3000))
    ({ start with a := 0x0F, ram := [(0x3000, 0xFF)] }) 6 (fun t => !t.p.z && at0 t 0x3000 == 0xF0) = true := by decide

/-- RW9: always 7 cycles. -/
theorem test_asl_indexed : takes (.asl (.mem (.abx 0x20FF)))
    ({ start with x := 1, ram := [(0x2100, 0xC0)] }) 7 (fun t => at0 t 0x2100 == 0x80 && t.p == flags 1 0 0 0 0 1) = true := by decide

/-- RW6. -/
theorem test_lsr_accumulator : takes (.lsr .acc)
    ({ start with a := 0x01 }) 2 (fun t => t.a == 0 && t.p == flags 0 0 0 0 1 1) = true := by decide

/-- RW4. -/
theorem test_rol : takes (.rol (.mem (.zp 0x10)))
    ({ start with p := flags 0 0 0 0 0 1, ram := [(0x10, 0x80)] }) 5 (fun t => at0 t 0x10 == 0x01 && t.p == flags 0 0 0 0 0 1) = true := by decide

/-- RW5. -/
theorem test_ror_accumulator : takes (.ror .acc)
    ({ start with a := 0x01, p := flags 0 0 0 0 0 1 }) 2 (fun t => t.a == 0x80 && t.p == flags 1 0 0 0 0 1) = true := by decide

/-- RW1: the second access is a read. -/
theorem test_inc : takes (.inc (.mem (.zp 0x10)))
    ({ start with ram := [(0x10, 0xFF)] }) 5 (fun t => at0 t 0x10 == 0 && t.p.z && t.bus[1]? == some (.read .dummyRead 0x10 0xFF)) = true := by decide

/-- RW13: a device register is read twice and written once. -/
theorem test_inc_device : takes (.inc (.mem (.abs 0xFD00)))
    ({ start with mapctl := 0 }) 6 (fun t => t.timers[0].bkup == 1 && at0 t 0xFD00 == 0) = true := by decide

/-- RW2. -/
theorem test_dec : takes (.dec (.mem (.zp 0x10)))
    (start) 5 (fun t => at0 t 0x10 == 0xFF && t.p.n) = true := by decide

/-- By R207: the wrap. -/
theorem test_inx : takes (.inx)
    ({ start with x := 0xFF }) 2 (fun t => t.x == 0 && t.p.z) = true := by decide

/-- RW12: no overflow flag. -/
theorem test_iny : takes (.iny)
    ({ start with y := 0x7F }) 2 (fun t => t.y == 0x80 && t.p == flags 1 0 0 0 0 0) = true := by decide

/-- RW11. -/
theorem test_dex : takes (.dex)
    (start) 2 (fun t => t.x == 0xFF && t.p.n) = true := by decide

/-- By R210. -/
theorem test_dey : takes (.dey)
    ({ start with y := 1 }) 2 (fun t => t.y == 0 && t.p.z) = true := by decide

/-- BR7. -/
theorem test_bcc_taken : takes (.bcc 0x00)
    (start) 3 (fun t => t.pc == 0x1002) = true := by decide

/-- BR3. -/
theorem test_bcs_other_page : takes (.bcs 0xFC)
    ({ start with pc := 0x2000, p := flags 0 0 0 0 0 1 }) 4 (fun t => t.pc == 0x1FFE && t.bus.head? == some (.read .dummyRead 0x20FE 0)) = true := by decide

/-- BR6. -/
theorem test_beq_self : takes (.beq 0xFE)
    ({ start with p := flags 0 0 0 0 1 0 }) 3 (fun t => t.pc == 0x1000) = true := by decide

/-- BR1. -/
theorem test_bne_not_taken : takes (.bne 0x10)
    ({ start with p := flags 0 0 0 0 1 0 }) 2 (fun t => t.pc == 0x1002) = true := by decide

/-- By R235: taken. -/
theorem test_bmi : takes (.bmi 0x10)
    ({ start with p := flags 1 0 0 0 0 0 }) 3 (fun t => t.pc == 0x1012) = true := by decide

/-- BR5. -/
theorem test_bpl_wraps : takes (.bpl 0x10)
    ({ start with pc := 0xFFFE }) 3 (fun t => t.pc == 0x0010) = true := by decide

/-- By R237: not taken. -/
theorem test_bvc : takes (.bvc 0x10)
    ({ start with p := flags 0 1 0 0 0 0 }) 2 (fun t => t.pc == 0x1002) = true := by decide

/-- By R238: taken. -/
theorem test_bvs : takes (.bvs 0x80)
    ({ start with p := flags 0 1 0 0 0 0 }) 4 (fun t => t.pc == 0x0F82) = true := by decide

/-- BR4. -/
theorem test_bra_furthest : takes (.bra 0x7F)
    ({ start with pc := 0x10F0 }) 4 (fun t => t.pc == 0x1171) = true := by decide

/-- JP2: the high byte comes from the next page. -/
theorem test_jmp_indirect : takes (.jmp (.ind 0x12FF))
    ({ start with ram := [(0x1200, 0x99), (0x12FF, 0x34), (0x1300, 0x56)] }) 5 (fun t => t.pc == 0x5634) = true := by decide

/-- JP3. -/
theorem test_jmp_indexed_indirect : takes (.jmp (.iax 0x3000))
    ({ start with x := 4, ram := [(0x3005, 0x80)] }) 6 (fun t => t.pc == 0x8000) = true := by decide

/-- JP4. -/
theorem test_jsr : takes (.jsr 0x3000)
    (start) 6 (fun t => t.pc == 0x3000 && t.sp == 0xFD && at0 t 0x1FF == 0x10 && at0 t 0x1FE == 0x02) = true := by decide

/-- JP5. -/
theorem test_rts : takes (.rts)
    ({ start with pc := 0x3000, sp := 0xFD, ram := [(0x1FE, 0x02), (0x1FF, 0x10)] }) 6 (fun t => t.pc == 0x1003 && t.sp == 0xFF) = true := by decide

/-- JP6: no 1 is added. -/
theorem test_rti : takes (.rti)
    ({ start with sp := 0xFC, ram := [(0x1FD, 0x21), (0x1FE, 0x34), (0x1FF, 0x12)] }) 6 (fun t => t.p == flags 0 0 0 0 0 1 && t.pc == 0x1234 && t.sp == 0xFF) = true := by decide

/-- JP8: `B` is set in the pushed byte and `D` survives. -/
theorem test_brk : takes (.brk 0xEA)
    ({ start with pc := 0x2000, p := flags 0 0 1 0 0 1, ram := [(0xFFFF, 0x90)] }) 7 (fun t => at0 t 0x1FF == 0x20 && at0 t 0x1FE == 0x02 && at0 t 0x1FD == 0x39 && t.sp == 0xFC && t.p == flags 0 0 1 1 0 1 && t.pc == 0x9000) = true := by decide

/-- FL2. -/
theorem test_clc : takes (.clc)
    ({ start with p := flags 1 1 1 1 1 1 }) 2 (fun t => t.p == flags 1 1 1 1 1 0) = true := by decide

/-- FL1. -/
theorem test_sec : takes (.sec)
    (start) 2 (fun t => t.p == flags 0 0 0 0 0 1) = true := by decide

/-- FL5. -/
theorem test_cli : takes (.cli)
    ({ start with p := flags 1 1 1 1 1 1 }) 2 (fun t => t.p == flags 1 1 1 0 1 1) = true := by decide

/-- By R263. -/
theorem test_sei : takes (.sei)
    (start) 2 (fun t => t.p == flags 0 0 0 1 0 0) = true := by decide

/-- FL3. -/
theorem test_cld : takes (.cld)
    ({ start with p := flags 1 1 1 1 1 1 }) 2 (fun t => t.p == flags 1 1 0 1 1 1) = true := by decide

/-- FL3. -/
theorem test_sed : takes (.sed)
    (start) 2 (fun t => t.p == flags 0 0 1 0 0 0) = true := by decide

/-- FL4. -/
theorem test_clv : takes (.clv)
    ({ start with p := flags 1 1 1 1 1 1 }) 2 (fun t => t.p == flags 1 0 1 1 1 1) = true := by decide

/-- FL6. -/
theorem test_nop : takes (.nop)
    ({ start with a := 7 }) 2 (fun t => t.pc == 0x1001 && t.a == 7 && t.p == flags 0 0 0 0 0 0) = true := by decide

/-- FL7. -/
theorem test_wai : takes (.wai)
    (start) 3 (fun t => t.run == .waitingForInterrupt && t.pc == 0x1001) = true := by decide

/-- FL8. -/
theorem test_stp : takes (.stp)
    (start) 3 (fun t => t.run == .stopped && t.pc == 0x1001) = true := by decide

/-- UD1. -/
theorem test_nop1 : takes (.nop1 0x03)
    (start) 1 (fun t => t.pc == 0x1001) = true := by decide

/-- UD3: nothing is read at `0x10`. -/
theorem test_nop2 : takes (.nop2 0x44 0x10)
    ({ start with ram := [(0x10, 0x55)] }) 2 (fun t => t.pc == 0x1002 && t.p == flags 0 0 0 0 0 0) = true := by decide

/-- UD4: no jump. -/
theorem test_nop3 : takes (.nop3 0x5C 0x1234)
    (start) 3 (fun t => t.pc == 0x1003) = true := by decide

/-- By R281. -/
theorem test_rmb0 : takes (.rmb0 0x10)
    ({ start with ram := [(0x10, 0xFF)] }) 5 (fun t => at0 t 0x10 == 0xFE) = true := by decide

/-- By R281. -/
theorem test_rmb1 : takes (.rmb1 0x10)
    ({ start with ram := [(0x10, 0xFF)] }) 5 (fun t => at0 t 0x10 == 0xFD) = true := by decide

/-- By R281. -/
theorem test_rmb2 : takes (.rmb2 0x10)
    ({ start with ram := [(0x10, 0xFF)] }) 5 (fun t => at0 t 0x10 == 0xFB) = true := by decide

/-- BO1. -/
theorem test_rmb3 : takes (.rmb3 0x10)
    ({ start with ram := [(0x10, 0xFF)] }) 5 (fun t => at0 t 0x10 == 0xF7) = true := by decide

/-- By R281. -/
theorem test_rmb4 : takes (.rmb4 0x10)
    ({ start with ram := [(0x10, 0xFF)] }) 5 (fun t => at0 t 0x10 == 0xEF) = true := by decide

/-- By R281. -/
theorem test_rmb5 : takes (.rmb5 0x10)
    ({ start with ram := [(0x10, 0xFF)] }) 5 (fun t => at0 t 0x10 == 0xDF) = true := by decide

/-- By R281. -/
theorem test_rmb6 : takes (.rmb6 0x10)
    ({ start with ram := [(0x10, 0xFF)] }) 5 (fun t => at0 t 0x10 == 0xBF) = true := by decide

/-- By R281. -/
theorem test_rmb7 : takes (.rmb7 0x10)
    ({ start with ram := [(0x10, 0xFF)] }) 5 (fun t => at0 t 0x10 == 0x7F) = true := by decide

/-- By R282. -/
theorem test_smb0 : takes (.smb0 0x10)
    (start) 5 (fun t => at0 t 0x10 == 0x01 && t.p == flags 0 0 0 0 0 0) = true := by decide

/-- By R282. -/
theorem test_smb1 : takes (.smb1 0x10)
    (start) 5 (fun t => at0 t 0x10 == 0x02 && t.p == flags 0 0 0 0 0 0) = true := by decide

/-- By R282. -/
theorem test_smb2 : takes (.smb2 0x10)
    (start) 5 (fun t => at0 t 0x10 == 0x04 && t.p == flags 0 0 0 0 0 0) = true := by decide

/-- By R282. -/
theorem test_smb3 : takes (.smb3 0x10)
    (start) 5 (fun t => at0 t 0x10 == 0x08 && t.p == flags 0 0 0 0 0 0) = true := by decide

/-- BO2. -/
theorem test_smb4 : takes (.smb4 0x10)
    (start) 5 (fun t => at0 t 0x10 == 0x10 && t.p == flags 0 0 0 0 0 0) = true := by decide

/-- By R282. -/
theorem test_smb5 : takes (.smb5 0x10)
    (start) 5 (fun t => at0 t 0x10 == 0x20 && t.p == flags 0 0 0 0 0 0) = true := by decide

/-- By R282. -/
theorem test_smb6 : takes (.smb6 0x10)
    (start) 5 (fun t => at0 t 0x10 == 0x40 && t.p == flags 0 0 0 0 0 0) = true := by decide

/-- By R282. -/
theorem test_smb7 : takes (.smb7 0x10)
    (start) 5 (fun t => at0 t 0x10 == 0x80 && t.p == flags 0 0 0 0 0 0) = true := by decide

/-- BO3. -/
theorem test_bbr0 : takes (.bbr0 0x20 0x05)
    ({ start with ram := [(0x20, 0xFE)] }) 6 (fun t => t.pc == 0x1008) = true := by decide

/-- By R283: the bit is clear, the others are set. -/
theorem test_bbr1 : takes (.bbr1 0x20 0x05)
    ({ start with ram := [(0x20, 0xFD)] }) 6 (fun t => t.pc == 0x1008) = true := by decide

/-- By R283: the bit is clear, the others are set. -/
theorem test_bbr2 : takes (.bbr2 0x20 0x05)
    ({ start with ram := [(0x20, 0xFB)] }) 6 (fun t => t.pc == 0x1008) = true := by decide

/-- By R283: the bit is clear, the others are set. -/
theorem test_bbr3 : takes (.bbr3 0x20 0x05)
    ({ start with ram := [(0x20, 0xF7)] }) 6 (fun t => t.pc == 0x1008) = true := by decide

/-- By R283: the bit is clear, the others are set. -/
theorem test_bbr4 : takes (.bbr4 0x20 0x05)
    ({ start with ram := [(0x20, 0xEF)] }) 6 (fun t => t.pc == 0x1008) = true := by decide

/-- By R283: the bit is clear, the others are set. -/
theorem test_bbr5 : takes (.bbr5 0x20 0x05)
    ({ start with ram := [(0x20, 0xDF)] }) 6 (fun t => t.pc == 0x1008) = true := by decide

/-- By R283: the bit is clear, the others are set. -/
theorem test_bbr6 : takes (.bbr6 0x20 0x05)
    ({ start with ram := [(0x20, 0xBF)] }) 6 (fun t => t.pc == 0x1008) = true := by decide

/-- By R283: the bit is clear, the others are set. -/
theorem test_bbr7 : takes (.bbr7 0x20 0x05)
    ({ start with ram := [(0x20, 0x7F)] }) 6 (fun t => t.pc == 0x1008) = true := by decide

/-- By R284: the bit is set, the others are clear. -/
theorem test_bbs0 : takes (.bbs0 0x20 0xFD)
    ({ start with ram := [(0x20, 0x01)] }) 6 (fun t => t.pc == 0x1000) = true := by decide

/-- By R284: the bit is set, the others are clear. -/
theorem test_bbs1 : takes (.bbs1 0x20 0xFD)
    ({ start with ram := [(0x20, 0x02)] }) 6 (fun t => t.pc == 0x1000) = true := by decide

/-- By R284: the bit is set, the others are clear. -/
theorem test_bbs2 : takes (.bbs2 0x20 0xFD)
    ({ start with ram := [(0x20, 0x04)] }) 6 (fun t => t.pc == 0x1000) = true := by decide

/-- By R284: the bit is set, the others are clear. -/
theorem test_bbs3 : takes (.bbs3 0x20 0xFD)
    ({ start with ram := [(0x20, 0x08)] }) 6 (fun t => t.pc == 0x1000) = true := by decide

/-- By R284: the bit is set, the others are clear. -/
theorem test_bbs4 : takes (.bbs4 0x20 0xFD)
    ({ start with ram := [(0x20, 0x10)] }) 6 (fun t => t.pc == 0x1000) = true := by decide

/-- By R284: the bit is set, the others are clear. -/
theorem test_bbs5 : takes (.bbs5 0x20 0xFD)
    ({ start with ram := [(0x20, 0x20)] }) 6 (fun t => t.pc == 0x1000) = true := by decide

/-- By R284: the bit is set, the others are clear. -/
theorem test_bbs6 : takes (.bbs6 0x20 0xFD)
    ({ start with ram := [(0x20, 0x40)] }) 6 (fun t => t.pc == 0x1000) = true := by decide

/-- BO5. -/
theorem test_bbs7 : takes (.bbs7 0x20 0xFD)
    ({ start with ram := [(0x20, 0x80)] }) 6 (fun t => t.pc == 0x1000) = true := by decide

/-- UD6: strict mode fails right after the opcode fetch. -/
theorem test_strict_undefined :
    fails (exec (.nop1 0x03) { start with params := { start.params with strictUndefined := true } })
      (fun f => match f with | .unknownOpcode op left => op == 0x03 && left.pc == 0x1001 && left.cyc == 1) = true := by decide

/-! ### Steps, interrupts, reset -/

/-- A step from reset executes a placed instruction (`LDA #$80`), for the host's two definitions. -/
theorem test_step_of_placed_word :
    gives (step (State.reset.withFetchWord 16 0x80A9)) (fun t => t.a == 0x80 && t.p.n && t.cyc == 9) = true := by decide

/-- A placed bit instruction (`SMB4 $10`, R282): seven cycles of reset and five of its own. -/
theorem test_step_of_placed_smb :
    gives (step (State.reset.withFetchWord 16 0x10C7)) (fun t => at0 t 0x10 == 0x10 && t.cyc == 12) = true := by decide

/-- IX1: the IRQ entry. -/
theorem test_irq_entry :
    gives (step { start with
        pc := 0x1234, irqLine := true, p := flags 0 0 0 0 0 1, ram := [(0xFFFF, 0x06)] })
      (fun t => at0 t 0x1FF == 0x12 && at0 t 0x1FE == 0x34 && at0 t 0x1FD == 0x21 && t.sp == 0xFC && t.p.i && t.pc == 0x0600
        && t.cyc == 7) = true := by decide

/-- IX3: NMI first, its latch cleared, although `I` is set (IX4). -/
theorem test_nmi_first :
    gives (step { start with
        pc := 0x1234, irqLine := true, nmiPending := true, p := flags 0 0 0 1 0 0
        ram := [(0xFFFB, 0x07), (0xFFFF, 0x06)] })
      (fun t => t.pc == 0x0700 && !t.nmiPending && t.cyc == 7) = true := by decide

/-- IX4: a rising edge latches once; the level does not. -/
theorem test_nmi_edge :
    (setNmiLine true start).nmiPending = true ∧
    (setNmiLine true { setNmiLine true start with nmiPending := false }).nmiPending = false := by decide

/-- IX5: a masked request wakes a waiting core in one idle cycle. -/
theorem test_wai_wakes_masked :
    gives (step { start with run := .waitingForInterrupt, irqLine := true, p := flags 0 0 0 1 0 0 })
      (fun t => t.run == .running && t.cyc == 1 && t.pc == 0x1000) = true := by decide

/-- IX7: a stopped core idles. -/
theorem test_stopped_idles :
    gives (step { start with run := .stopped, irqLine := true, nmiPending := true })
      (fun t => t.run == .stopped && t.cyc == 1 && t.nmiPending) = true := by decide

/-- IX8: reset reads the vector from the ROM. -/
theorem test_reset_vector :
    let t := hostReset 0x42 { start with a := 9, params := { start.params with rom := [(0x1FD, 0xFE)] } }
    t.pc = 0xFE00 ∧ t.sp = 0x42 ∧ t.a = 9 ∧ t.mapctl = 0 ∧ t.p.i = true ∧ t.cyc = 7 := by decide

/-! ### Memory map and devices -/

/-- A store, for the tests of the devices. -/
def poke (a : Addr) (v : Byte) (s : State) : State := memWrite .write a v s

/-- MD4: ROM hides RAM, and a write to it is discarded. -/
theorem test_rom_write :
    let s : State :=
      { start with mapctl := 0, ram := [(0xFE10, 0x77)], params := { start.params with rom := [(0x10, 0xA9)] } }
    peek s 0xFE10 = 0xA9 ∧ at0 (poke 0xFE10 0x01 s) 0xFE10 = 0x77 ∧ peek { s with mapctl := 0x04 } 0xFE10 = 0x77 := by decide

/-- MD8: open bus. -/
theorem test_open_bus :
    let s : State := { start with mapctl := 0 }
    peek s 0xFD60 = 0xFF ∧ peek s 0xFC00 = 0xFF ∧ at0 (poke 0xFD60 0x12 s) 0xFD60 = 0 := by decide

/-- V1: the map-control overlay. -/
theorem test_mapctl_scenario :
    let s2 := poke 0xFD00 0xAA (poke 0xFFF9 0x00 { start with ram := [(0xFD00, 0x11)] })
    let s5 := poke 0xFD00 0x55 (poke 0xFFF9 0x02 s2)
    let s7 := poke 0xFFF9 0x00 s5
    peek s2 0xFD00 = 0xAA ∧ peek s5 0xFD00 = 0x55 ∧ peek s7 0xFD00 = 0xAA ∧ at0 s7 0xFD00 = 0x55 := by decide

/-- V3: timer 0 cascades into timer 2, whose underflow ends the frame. -/
theorem test_timer_cascade :
    let t := timerTick 16
      ((start.setTimer 0 { Timer.afterReset 0 with ctla := 0x08 }).setTimer 2
        { Timer.afterReset 0 with bkup := 3, ctla := 0x0F, cnt := 3 })
    t.timers[0].ctlb = 0x08 ∧ t.timers[2].cnt = 3 ∧ t.timers[2].ctlb = 0x08 ∧ t.timers[2].last = 16 ∧
      t.video.scanline = 0 ∧ t.video.frames = 1 ∧ t.pending = 0 := by decide

/-- TM4: an enabled timer requests its interrupt. -/
theorem test_timer_requests :
    let t := timerTick 24 (start.setTimer 1 { Timer.afterReset 0 with bkup := 5, ctla := 0x89, cnt := 2 })
    t.timers[1].cnt = 5 ∧ t.timers[1].ctlb = 0x08 ∧ t.pending = 0x02 ∧ t.irqLine = true := by decide

/-- PV1: the colour of a palette entry. -/
theorem test_palette :
    (poke 0xFDB3 0x5C (poke 0xFDA3 0x0A { start with mapctl := 0 })).video.argb 3 = 0xFFCCAA55 := by decide

/-- PV4: high nibble left. -/
theorem test_scanline :
    let s : State :=
      { start with
        ram := [(0x40A0, 0x3A)]
        video :=
          { start.video with
            dispctl := 1, dispadr := 0x4000, scanline := 2
            palG := ((Vector.replicate 16 0).set 3 0x0A).set 10 0x0F
            palBR := (Vector.replicate 16 0).set 3 0x5C } }
    s.video.renderByte s.ram [] 0 = [(320, 0xFFCCAA55), (321, 0xFF00FF00)] := by decide

/-- MA3: the accumulator overflows. -/
theorem test_math_accumulate :
    let s : State :=
      { start with
        mapctl := 0
        suzy :=
          { start.suzy with
            accumulate := true, mathJ := 0xFF, mathK := 0xFF, mathB := 0x34, mathC := 0, mathD := 0x10 } }
    let t := poke 0xFC55 0x12 s
    t.suzy.efgh = 0x00012340 ∧ t.suzy.jklm = 0x00002340 ∧ peek t 0xFC92 = 0x40 := by decide

/-- MA6: both sign tests. -/
theorem test_math_signed :
    mathProduct .bit15 true 0x8000 0x0001 = 0xFFFF8000 ∧ mathProduct .minusOneBit15 true 0x8000 0x0001 = 0x00008000 := by
  decide

/-- R364, by hand: the old occupant 5 of slot 3 is OR'd into entry 2 (8 becomes 13) and into a byte of RAM (0 becomes 5), slot 3
takes the new occupant 9. -/
theorem test_collision :
    let c : Canvas := { ram := [], coll := (Vector.replicate 16 0).set 3 5 |>.set 2 8 }
    let d := c.act 1 (.pixel 0x2100 0x40 { slot := 3, side1 := .entry 2, side2 := .byte 0x2200, occupant := 9 })
    d.coll[2] = 13 ∧ d.coll[3] = 9 ∧ d.coll[4] = 0 ∧ Memory.read d.ram 0x2100 = 0x40 ∧ Memory.read d.ram 0x2200 = 5 := by decide

/-- R364: with collision number 0 a pixel leaves the buffer alone. -/
theorem test_no_collision :
    let c : Canvas := { ram := [], coll := (Vector.replicate 16 0).set 3 5 }
    let d := c.act 0 (.pixel 0x2100 0x40 { slot := 3, side1 := .entry 2, side2 := .entry 3, occupant := 9 })
    d.coll = c.coll ∧ Memory.read d.ram 0x2100 = 0x40 := by decide

/-- MA9: a divide. -/
theorem test_math_divide :
    let t := poke 0xFC63 0x00
      { start with mapctl := 0, suzy := { start.suzy with mathP := 3, mathF := 1 } }
    t.suzy.abcd = 0x00005555 ∧ t.suzy.jklm = 0x00000001 := by decide

/-- AU1, AU4: the shift register and the clamped output. -/
theorem test_audio_clock :
    ({ Channel.afterReset 0 with feedback := 1, lfsr := 1, vol := 0x10 } : Channel).clockLfsr.lfsr = 0x800 ∧
    ({ Channel.afterReset 0 with feedback := 1, lfsr := 1, vol := 0x10 } : Channel).clockLfsr.out = 0xF0 ∧
    ({ Channel.afterReset 0 with lfsr := 2, vol := 0x10, ctl := 0x20, out := 0x78 } : Channel).clockLfsr.out = 0x7F := by
  decide

/-- CK1, with banks of 2 bytes: the counter wraps inside the bank's size, and goes on. -/
theorem test_cartridge_wraps :
    let s : State :=
      { start with
        mapctl := 0
        params :=
          { start.params with
            cart := { image := [0x11, 0x22, 0x33], bankOffset := #v[0, 1], bankSize := #v[2, 2] } } }
    let r1 := memRead .read 0xFCB2 { s with cart := { s.cart with addrCnt := 1 } }
    r1.1 = 0x22 ∧ r1.2.cart.addrCnt = 2 ∧ (memRead .read 0xFCB2 r1.2).1 = 0x11 ∧ peek r1.2 0xFCB3 = 0x22 := by decide

/-- V5, the last clock of the `WRITE`: the word lands at its address. -/
theorem test_eeprom_write :
    let e : Eeprom :=
      { Eeprom.unplugged with
        chip := .c93c46, phase := .receivingData, opcode := 0b101, address := 5, data := 0x091A, bitCount := 15
        writeEnabled := true }
    (e.clock true false).word 5 = 0x1234 ∧ (e.clock true false).phase = .idle ∧
      ({ e with writeEnabled := false }.clock true false).word 5 = 0xFFFF := by decide

/-! ### Witnesses: a state and operands that meet the hypotheses of each statement, and of each of its clauses -/

/-- A state in which every overlay is visible. -/
def shown : State := { start with mapctl := 0 }

/-- A state in which strict mode is on. -/
def strict : State := { start with params := { start.params with strictUndefined := true } }

theorem witness_DecodeOfEncodeIsTheInstruction :
    Instr.wf false (.jmp (.iax 0xFFFF)) = true ∧ Instr.wf true (.bbs7 0xFF 0x80) = true ∧ Instr.wf false (.nop1 0xFF) = true := by
  decide

theorem witness_PageCrossingIsACarryOutOfTheLowByte :
    crosses 0x2001 0xFF = true ∧ crosses 0x2000 0xFF = false ∧ crosses 0xFFFF 0x01 = true := by decide

theorem witness_OperandsComeFromTheEffectiveAddress :
    isPort start.mapctl (effectiveAddress (.abs 0xFCB2) start) = false ∧
    isPort shown.mapctl (effectiveAddress (.abs 0xFCB1) shown) = false ∧
    isPort shown.mapctl (effectiveAddress (.abs 0xFCB4) shown) = false := by decide

theorem witness_StoresChangeOneByteOfMemory :
    Memory.wf shown.ram = true ∧
    region shown.mapctl (storeAddress (.abs 0xFBFF) shown) = .ram ∧ region shown.mapctl (storeAddress (.abs 0xFFF8) shown) = .ram ∧
    region shown.mapctl (storeAddress (.abs 0xFE00) shown) = .rom 0 ∧
    region shown.mapctl (storeAddress (.abs 0xFFFF) shown) = .rom 511 ∧
    region shown.mapctl (storeAddress (.abs 0xFFF9) shown) = .mapctl ∧
    region shown.mapctl (storeAddress (.abs 0xFD00) shown) = .mikey 0 ∧
    region shown.mapctl (storeAddress (.abs 0xFDFF) shown) = .mikey 0xFF ∧
    region shown.mapctl (storeAddress (.abs 0xFC00) shown) = .suzy 0 ∧
    region shown.mapctl (storeAddress (.abs 0xFCFF) shown) = .suzy 0xFF := by decide

/-- For `PushesStoreAtTheStackPointer`, `StatusByteRoundTrip`, `CallAndReturnUseTheStack`, `BrkTakesTheIrqVectorWithBSet` and
`BitInstructionsWriteOneBitOfPageZero`. -/
theorem witness_PushesStoreAtTheStackPointer :
    Memory.wf start.ram = true ∧ Memory.wf [(0x00, 0x01), (0x1FF, 0x02), (0xFFFF, 0x03)] = true := by decide

/-- For `AdcBinaryAddsWithCarry` and `SbcBinarySubtractsWithBorrow`. -/
theorem witness_AdcBinaryAddsWithCarry : start.p.d = false := by decide

theorem witness_DecimalAddAndSubtractOnValidBcd :
    let s : State := { start with a := 0x99, p := flags 0 0 1 0 0 1 }
    s.p.d = true ∧ validBcd s.a = true ∧ validBcd (operandValue (.imm 0x99) s) = true ∧
      validBcd (operandValue (.imm 0x00) s) = true := by decide

theorem witness_DecimalOnInvalidBcdCompletes :
    let s : State := { start with a := 0x00, p := flags 0 0 1 0 0 0 }
    s.p.d = true ∧ (validBcd s.a && validBcd (operandValue (.imm 0x0A) s)) = false ∧
      (validBcd s.a && validBcd (operandValue (.imm 0xA0) s)) = false := by decide

theorem witness_ReadModifyWriteChangesOneByteOfRam :
    Memory.wf shown.ram = true ∧ region shown.mapctl (modifyAddress (.abs 0xFBFF) shown) = .ram ∧
      region start.mapctl (modifyAddress (.abs 0xFC00) start) = .ram := by decide

theorem witness_JumpsGoToTheirTarget :
    isPort shown.mapctl 0xFCB0 = false ∧ isPort shown.mapctl 0xFCB1 = false ∧ isPort shown.mapctl 0xFFFF = false ∧
      isPort shown.mapctl (0xFFFF + 1) = false := by decide

/-- Also for the last clause of `StatusByteRoundTrip`. -/
theorem witness_RtiUndoesAnInterruptEntry :
    let s : State := { start with nmiPending := true }
    Memory.wf s.ram = true ∧ s.run = .running ∧
      boundary s = .done (interruptEntry nmiVector { s with nmiPending := false }) := ⟨rfl, rfl, rfl⟩

/-- For `UndefinedOpcodesAreNopsOfTheirLength` and `StrictModeFailsOnUndefinedOpcodes`. -/
theorem witness_UndefinedOpcodesAreNopsOfTheirLength :
    start.params.strictUndefined = false ∧ strict.params.strictUndefined = true := by decide

theorem witness_InterruptsAreTakenAtTheBoundary :
    let n : State := { start with nmiPending := true, irqLine := true }
    let q : State := { start with irqLine := true }
    (n.run = .running ∧ n.nmiPending = true ∧ Memory.wf n.ram = true) ∧
    (q.run = .running ∧ q.nmiPending = false ∧ q.irqLine = true ∧ q.p.i = false ∧ Memory.wf q.ram = true) := by decide

theorem witness_WaitingAndStoppedSteps :
    ({ start with run := .stopped } : State).run = .stopped ∧
    ({ start with run := .waitingForInterrupt } : State).run = .waitingForInterrupt := by decide

theorem witness_StepRunsTheDecodedInstruction :
    Executes start ∧
    (let b := instrBytes (beginStep start)
     decode start.params.bitops [b.1, b.2.1, b.2.2] = .ok (.brk 0x00, [0x00])) ∧
    gives (exec (.brk 0x00) (beginStep start)) (fun _ => true) = true ∧
    isPort start.mapctl (start.pc + 1) = false ∧ isPort start.mapctl (start.pc + 2) = false ∧
    (peek start start.pc = 0x20 → start.pc + 2 ≠ stackAddr start.sp ∧ start.pc + 2 ≠ stackAddr (start.sp - 1)) :=
  ⟨⟨rfl, rfl, fun h => by cases h⟩, rfl, by decide, by decide, by decide, by decide⟩

/-- The fault clause of `StepRunsTheDecodedInstruction`. -/
theorem witness_StepRunsTheDecodedInstruction_fault :
    let s := holding [(0x1000, 0x03)] strict
    instrBytes (beginStep s) = (0x03, 0x00, 0x00) ∧ fails (exec (.nop1 0x03) (beginStep s)) (fun _ => true) = true := by decide

/-- The boundary clause of `StepRunsTheDecodedInstruction`: an interrupt, a stopped core. -/
theorem witness_StepRunsTheDecodedInstruction_boundary :
    let n : State := { start with nmiPending := true }
    let h : State := { start with run := .stopped }
    boundary (beginStep n) = .done (interruptEntry nmiVector { beginStep n with nmiPending := false }) ∧
      boundary (beginStep h) = .done (idle (beginStep h)) := ⟨rfl, rfl⟩

/-- A `JSR` whose last byte is clear of the bytes it pushes, at the boundary. -/
theorem witness_StepRunsTheDecodedInstruction_jsr :
    let s : State := { holding [(0x01FA, 0x20)] start with pc := 0x01FA, sp := 0xFF }
    peek s s.pc = 0x20 ∧ s.pc + 2 ≠ stackAddr s.sp ∧ s.pc + 2 ≠ stackAddr (s.sp - 1) := by decide

/-- For `FetchesSeeTheDecodedBytes`, `EveryStepMovesTheClockAndSettlesTheIrqLine` and `EveryStepKeepsTheInvariant`. -/
theorem witness_FetchesSeeTheDecodedBytes :
    Executes start ∧ gives (step start) (fun t => fetchedBytes t.bus == [0x00, 0x00]) = true :=
  ⟨⟨rfl, rfl, fun h => by cases h⟩, by decide⟩

theorem witness_OnlyStrictUndefinedOpcodesFail :
    let s := holding [(0x1000, 0xFF)] strict
    Executes s ∧ s.params.strictUndefined = true ∧ isUndefined s.params.bitops (peek s s.pc) = true ∧
      fails (step s) (fun _ => true) = true :=
  ⟨⟨rfl, rfl, fun h => by cases h⟩, by decide, by decide, by decide⟩

/-- For `EveryInstructionTakesItsTabledCycles` and `OnlyTheListedInstructionsWrite`: an instruction with a next state, here one
that writes `A`, `N`, and one that writes memory. -/
theorem witness_EveryInstructionTakesItsTabledCycles :
    gives (exec (.lda (.imm 0x80)) start) (fun t => t.a != start.a && t.p.n != start.p.n) = true ∧
    gives (exec (.sta (.zp 0x10)) { start with a := 7 }) (fun t => at0 t 0x10 != at0 start 0x10) = true := by decide

theorem witness_EveryStepKeepsTheInvariant : Inv start ∧ gives (step start) (fun _ => true) = true :=
  ⟨⟨rfl, rfl, rfl, rfl, by decide, by decide, by decide⟩, by decide⟩

theorem witness_HostInputsKeepTheInvariant :
    Inv start ∧ start.params.stallTicksDevices = true ∧ Memory.wf PowerOnInputs.chosen.ram = true :=
  ⟨⟨rfl, rfl, rfl, rfl, by decide, by decide, by decide⟩, by decide, by decide⟩

theorem witness_ResetDoesWhatItsRuleLists :
    2 ≤ start.params.resetCycles ∧ 2 ≤ ({ start.params with resetCycles := 2 } : Params).resetCycles := by decide

theorem witness_OverlaysHideAndKeepWhatIsUnderThem :
    Memory.wf start.ram = true ∧ (0x02 : Byte).getLsbD 1 = true ∧ (0x00 : Byte).getLsbD 1 = false ∧
    region shown.mapctl 0xFE00 = .rom 0 ∧ region shown.mapctl 0xFFF7 = .rom 503 ∧ region shown.mapctl 0xFFFA = .rom 506 ∧
    shown.params.romWriteThrough = false ∧ shown.mapctl.getLsbD 1 = false ∧ shown.mapctl.getLsbD 0 = false := by decide

/-- The addresses without a register, next to those with one. -/
theorem witness_OverlaysHideAndKeepWhatIsUnderThem_open :
    (∀ k ∈ [0x45, 0x4F, 0x51, 0x7F, 0x82, 0x91, 0x93, 0x96, 0x9F, 0xC0, 0xFF],
      ¬ (k < 0x45 ∨ k ∈ [0x50, 0x80, 0x81, 0x92, 0x94, 0x95] ∨ (0xA0 ≤ k ∧ k < 0xC0))) ∧
    mikeyReg 0x45 = none ∧ mikeyReg 0xC0 = none ∧ suzyReg 0x12 = none ∧ suzyReg 0x20 = none ∧ suzyReg 0xB4 = none := by decide

/-- Each clause of `AddressMap` at the ends of its range. -/
theorem witness_AddressMap :
    region 0 0x0000 = .ram ∧ region 0 0xFBFF = .ram ∧ region 0 0xFFF8 = .ram ∧ region 0x0F 0xFFF9 = .mapctl ∧
    region 0 0xFC00 = .suzy 0 ∧ region 0 0xFCFF = .suzy 0xFF ∧ region 1 0xFCFF = .ram ∧ region 0 0xFD00 = .mikey 0 ∧
    region 0 0xFDFF = .mikey 0xFF ∧ region 2 0xFD00 = .ram ∧ region 0 0xFE00 = .rom 0 ∧ region 0 0xFFF7 = .rom 503 ∧
    region 4 0xFFF7 = .ram ∧ region 4 0xFFFA = .rom 506 ∧ region 0 0xFFFF = .rom 511 ∧ region 8 0xFFFF = .ram := by decide

theorem witness_OnlyCartridgePortReadsHaveAnEffect :
    shown.mapctl.getLsbD 0 = false ∧ start.mapctl.getLsbD 0 = true ∧ ((0xFCB1 : Addr) ≠ 0xFCB2 ∧ (0xFCB1 : Addr) ≠ 0xFCB3) ∧
      ((0xFCB4 : Addr) ≠ 0xFCB2 ∧ (0xFCB4 : Addr) ≠ 0xFCB3) := by decide

/-- Each clause of `PrescaledTimerCountsWholePeriods`: a count that is just enough, a stopped timer, a linked one. -/
theorem witness_PrescaledTimerCountsWholePeriods :
    let s := start.setTimer 1 { Timer.afterReset 0 with ctla := 0x08, cnt := 3 }
    let t := s.timers[1]
    (t.ctla.getLsbD 3 = true ∧ t.ctla.toNat % 8 ≠ 7 ∧ (15 - t.last) / (4 <<< (t.ctla.toNat % 8)) ≤ t.cnt.toNat) ∧
    start.timers[1].ctla.getLsbD 3 = false ∧ (0x0F : Byte).toNat % 8 = 7 := by decide

/-- A count to go down and one at zero, with the interrupt enabled and disabled, the successor linked and not. -/
theorem witness_TimerUnderflowReloadsRequestsAndCascades :
    let s := start.setTimer 1 { Timer.afterReset 0 with ctla := 0x88, cnt := 1 }
    s.timers[1].cnt ≠ 0 ∧ s.timers[1].ctla.getLsbD 7 = true ∧ s.timers[7].cnt = 0 ∧ s.timers[0].ctla.getLsbD 7 = false ∧
      (0x0F : Byte).getLsbD 3 = true ∧ (0x0F : Byte).toNat % 8 = 7 := by decide

/-- Counts to go down and at zero, a next channel, and for the tick a prescaled channel whose count is just enough. -/
theorem witness_LfsrClockShiftsAndDrivesTheOutput :
    let s := start.setChannel 1 { Channel.afterReset 0 with ctl := 0x08, cnt := 3 }
    let ch := s.audio.channels[1]
    ch.cnt ≠ 0 ∧ s.audio.channels[2].cnt = 0 ∧ (3 : Fin 4).val = (2 : Fin 4).val + 1 ∧
      (ch.ctl.getLsbD 3 = true ∧ ch.ctl.toNat % 8 ≠ 7) ∧ (15 - ch.last) / (4 <<< (ch.ctl.toNat % 8)) = ch.cnt.toNat ∧
      s.audio.channels[0].ctl.getLsbD 3 = false ∧ s.audio.channels[2].ctl.getLsbD 3 = false ∧
      s.audio.channels[3].ctl.getLsbD 3 = false := by decide

/-- For `InterruptRegistersSetClearAndRecompute` and `PaletteBytesGiveTheColour`. -/
theorem witness_InterruptRegistersSetClearAndRecompute : shown.mapctl.getLsbD 1 = false ∧ (3 : Fin 16) ≠ 4 := by decide

/-- The last line that is drawn, the first that is not, and the display switched off. -/
theorem witness_HorizontalUnderflowDrawsOneLine :
    let s : State := { start with video := { start.video with dispctl := 1, scanline := 101 } }
    Cells.wfFrom black displayPixels 0 s.video.fb = true ∧ s.video.dispctl.getLsbD 0 = true ∧ s.video.scanline < 102 ∧
      start.video.dispctl.getLsbD 0 = false ∧ ¬ (102 : Nat) < 102 := by decide

theorem witness_MathAWriteMultiplies : shown.mapctl.getLsbD 0 = false := by decide

theorem witness_MathEWriteDivides :
    let z : Suzy := { shown.suzy with mathP := 1 }
    let y : Suzy := { z with signed := true }
    shown.mapctl.getLsbD 0 = false ∧ shown.suzy.np = 0 ∧ z.np ≠ 0 ∧ z.signed = false ∧ y.np ≠ 0 ∧ y.signed = true ∧
      (quad 0x7F y.mathF y.mathG y.mathH).toNat < 2 ^ 31 ∧ y.np.toNat < 2 ^ 15 := by decide

/-- The three cases of `SpriteChainEndsAtAPageZeroPointer`, at the pointers `0x00FF` and `0x0100` (SC1, SC2), and collision numbers
zero and not. -/
theorem witness_SpriteChainEndsAtAPageZeroPointer :
    let s : State := { shown with suzy := { shown.suzy with scbadr := 0x2000 } }
    let e : State := holding [(0x2003, 0xFF)] s
    let g : State := holding [(0x2004, 0x01)] s
    s.mapctl.getLsbD 0 = false ∧ hiByte s.suzy.scbadr ≠ 0 ∧ (0xFE : Byte).getLsbD 0 = false ∧ (0x01 : Byte).getLsbD 0 = true ∧
      hiByte (nextScb e.ram 0x2000) = 0 ∧ hiByte (nextScb g.ram 0x2000) ≠ 0 ∧ Memory.wf e.ram = true ∧
      (0 : BitVec 4) = 0 ∧ (1 : BitVec 4) ≠ 0 := by decide

theorem witness_EepromWritesOnlyWhenEnabled :
    let e : Eeprom :=
      { Eeprom.unplugged with
        chip := .c93c46, phase := .receivingData, opcode := 0b101, address := 63, bitCount := 15, writeEnabled := true }
    Eeprom.unplugged.writeEnabled = false ∧ e.writeEnabled = true ∧ e.phase = .receivingData ∧ e.bitCount = 15 ∧
      e.command = 0b01 ∧ e.address.toNat < e.chip.words ∧ 63 ≠ 5 ∧ Cells.wfFrom erased e.chip.words 0 e.cells = true := by decide

end Sys2Proof.Tests
end

namespace Sys2Proof.Machine

/-! ## The cycle account: O41

Every action of the core is one cycle and one recorded event; the devices add nothing to `CYC` but the sprite engine's stall, which
`chargeStall` adds to `STALL_TOTAL` as well. So the account is kept by each action, added up by `Clocked.trans`, and read off the
chain of `instrCycles i s` actions that `exec_does` makes of every instruction. -/

variable {m n : Nat} {s t u : State}

/-- From `s` to `t` the core spent `n` cycles, each recorded as one event, and whatever else `CYC` rose by is the sprite engine's
stall (R11, R361). -/
structure Clocked (n : Nat) (s t : State) : Prop where
  cycles : t.cyc + s.suzy.stallTotal = s.cyc + n + t.suzy.stallTotal
  events : t.bus.length = s.bus.length + n

theorem Clocked.refl (s : State) : Clocked 0 s s := ⟨rfl, rfl⟩

theorem Clocked.trans (h : Clocked m s t) (g : Clocked n t u) : Clocked (m + n) s u := by
  obtain ⟨hcyc, hbus⟩ := h
  obtain ⟨gcyc, gbus⟩ := g
  exact ⟨by omega, by omega⟩

/-! ### The devices spend no cycle of their own -/

@[simp] theorem Suzy.setWord_stallTotal (z : Suzy) (v : Addr) (w : SuzyWord) : (z.setWord v w).stallTotal = z.stallTotal := by
  cases w <;> rfl

@[simp] theorem Suzy.setMathByte_stallTotal (z : Suzy) (v : Byte) (r : MathByte) :
    (z.setMathByte v r).stallTotal = z.stallTotal := by
  cases r <;> rfl

@[simp] theorem Suzy.doMultiply_stallTotal (test : MathSignTest) (z : Suzy) : (z.doMultiply test).stallTotal = z.stallTotal := by
  unfold Suzy.doMultiply
  dsimp only
  split <;> rfl

@[simp] theorem Suzy.doDivide_stallTotal (free : Bool) (z : Suzy) : (z.doDivide free).stallTotal = z.stallTotal := by
  unfold Suzy.doDivide
  dsimp only
  split <;> rfl

/-- A change of Suzy that leaves `STALL_TOTAL` alone. -/
theorem setSuzy_clocked {z : Suzy} (h : z.stallTotal = s.suzy.stallTotal) : Clocked 0 s (s.setSuzy z) := ⟨by simp [h], rfl⟩

theorem bumpFree_clocked (s : State) : Clocked 0 s s.bumpFree := ⟨rfl, rfl⟩

theorem mikeyWrite_clocked (off v : Byte) (s : State) : Clocked 0 s (mikeyWrite off v s) := by
  unfold mikeyWrite
  cases mikeyReg off with
  | none => exact Clocked.refl s
  | some r => cases r <;> exact ⟨rfl, rfl⟩

theorem multiply_clocked (s : State) : Clocked 0 s (multiply s) := setSuzy_clocked (by simp)

theorem divide_clocked (s : State) : Clocked 0 s (divide s) := by
  have h := setSuzy_clocked (Suzy.doDivide_stallTotal (Config.divideByZeroOverflow s.freeCtr) s.suzy)
  unfold divide
  dsimp only
  split
  · exact h.trans (bumpFree_clocked _)
  · exact h

theorem writeMath_clocked (s : State) (v : Byte) (r : MathByte) : Clocked 0 s (writeMath s v r) := by
  have h := setSuzy_clocked (Suzy.setMathByte_stallTotal s.suzy v r)
  unfold writeMath
  dsimp only
  split
  · exact h.trans (multiply_clocked _)
  · exact h.trans (divide_clocked _)
  all_goals exact h

/-- Rendering adds to `STALL`, which is charged at the end of the chain. -/
theorem renderSprite_clocked (a : Addr) (s : State) : Clocked 0 s (renderSprite a s) := ⟨rfl, rfl⟩

theorem walkChain_clocked (left : Nat) (a : Addr) (s : State) : Clocked 0 s (walkChain left a s) := by
  induction left generalizing a s with
  | zero => exact Clocked.refl s
  | succ left ih =>
    unfold walkChain
    dsimp only
    split
    · exact renderSprite_clocked a s
    · exact (renderSprite_clocked a s).trans (ih _ _)

/-- The one device action that moves `CYC`: `STALL_TOTAL` rises by as much (R361). -/
theorem chargeStall_clocked (s : State) : Clocked 0 s (chargeStall s) := by
  refine ⟨?_, rfl⟩
  show s.cyc + s.suzy.stall + s.suzy.stallTotal = s.cyc + 0 + (s.suzy.stallTotal + s.suzy.stall)
  omega

theorem startSpriteEngine_clocked (s : State) : Clocked 0 s (startSpriteEngine s) := by
  have start : Clocked 0 s (s.setSuzy { s.suzy with busy := true, stall := 0 }) := setSuzy_clocked rfl
  unfold startSpriteEngine
  dsimp only
  refine Clocked.trans ?_ (chargeStall_clocked _)
  split_ifs
  · exact (start.trans (bumpFree_clocked _)).trans (walkChain_clocked _ _ _)
  · exact start.trans (walkChain_clocked _ _ _)
  · exact start.trans (bumpFree_clocked _)
  · exact start

theorem suzyWrite_clocked (off v : Byte) (s : State) : Clocked 0 s (suzyWrite off v s) := by
  unfold suzyWrite
  cases suzyReg off with
  | none => exact Clocked.refl s
  | some r =>
    cases r with
    | wordLo w => exact setSuzy_clocked (by simp)
    | wordHi w => exact setSuzy_clocked (by simp)
    | math r => exact writeMath_clocked s v r
    | sprgo =>
      simp only [suzyRegWrite]
      split
      · exact startSpriteEngine_clocked s
      · exact Clocked.refl s
    | sprsys => exact setSuzy_clocked rfl
    | joystick => exact Clocked.refl s
    | switches => exact Clocked.refl s
    | rcart b => exact Clocked.refl s

/-- Whatever a write reaches, it spends no cycle there (R57). -/
theorem busStore_clocked (a : Addr) (v : Byte) (s : State) : Clocked 0 s (busStore a v s) := by
  unfold busStore
  split
  · exact ⟨rfl, rfl⟩
  · exact suzyWrite_clocked _ _ _
  · exact mikeyWrite_clocked _ _ _
  · split
    · exact ⟨rfl, rfl⟩
    · exact Clocked.refl s
  · exact ⟨rfl, rfl⟩

/-! ### The actions of the core -/

/-- One recorded cycle (R9). -/
theorem cycle_clocked (s : State) (e : BusEvent) : Clocked 1 s (s.cycle e) := ⟨rfl, rfl⟩

theorem afterRead_clocked (k : ReadKind) (a : Addr) (s : State) : Clocked 1 s (afterRead k a s) := ⟨by simp, by simp⟩

theorem memWrite_clocked (k : WriteKind) (a : Addr) (v : Byte) (s : State) : Clocked 1 s (memWrite k a v s) :=
  (cycle_clocked s _).trans (busStore_clocked a v _)

theorem withCore_clocked (s : State) (c : CoreRegs) : Clocked 0 s (s.withCore c) := ⟨rfl, rfl⟩

/-- `n` actions of the core are `n` cycles and `n` events (R11). -/
theorem Does.clocked (h : Does n s t) : Clocked n s t := by
  induction h with
  | refl s => exact Clocked.refl s
  | read k a _ ih => exact ih.trans (afterRead_clocked k a _)
  | idle _ ih => exact ih.trans (cycle_clocked _ .idle)
  | write k a v _ ih => exact ih.trans (memWrite_clocked k a v _)
  | regs c _ ih => exact ih.trans (withCore_clocked _ c)
  | free _ ih => exact ih.trans (bumpFree_clocked _)

/-- Settles O41: an instruction that completes is a chain of `instrCycles i s` actions (`exec_does`), and the account holds along
every chain (`Does.clocked`). -/
theorem everyInstructionTakesItsTabledCycles : Obligations.EveryInstructionTakesItsTabledCycles := by
  intro i s t h
  obtain ⟨hcyc, hbus⟩ := (exec_does h).clocked
  exact ⟨hcyc, hbus⟩

end Sys2Proof.Machine

namespace Sys2Proof.Machine

/-! ## Every step keeps the invariant: O44, O42

A step is a chain of core actions followed by the devices' tick (`step_does`). The actions keep each `LAST` where it is while the
clock the devices see goes on (`Does.kept`, `Does.deviceTime_le`); the tick then brings each `LAST` forward, and not past that clock
(`platformTick_inTime`). -/

variable {n : Nat} {s t u w : State}

/-! ### What the actions of the core leave for the invariant -/

/-- What every action of the core, bus writes into the devices included, leaves of the fields the invariant speaks of: the `LAST`s
and the frame buffer move in the devices' tick only (R343, R352, R371); the sprite engine is at rest after each write (R361). -/
structure Kept (s t : State) : Prop where
  ram : Memory.wf s.ram = true → Memory.wf t.ram = true
  fb : t.video.fb = s.video.fb
  busy : s.suzy.busy = false → t.suzy.busy = false
  stall : s.suzy.stallTotal ≤ t.suzy.stallTotal
  timers : ∀ n : Fin 8, t.timers[n].last = s.timers[n].last
  channels : ∀ c : Fin 4, t.audio.channels[c].last = s.audio.channels[c].last

theorem Kept.refl (s : State) : Kept s s := ⟨id, rfl, id, le_rfl, fun _ => rfl, fun _ => rfl⟩

theorem Kept.trans (h : Kept s t) (g : Kept t u) : Kept s u where
  ram := g.ram ∘ h.ram
  fb := g.fb.trans h.fb
  busy := g.busy ∘ h.busy
  stall := h.stall.trans g.stall
  timers n := (g.timers n).trans (h.timers n)
  channels c := (g.channels c).trans (h.channels c)

theorem setTimer_kept {k : Fin 8} {x : Timer} (hlast : x.last = s.timers[k].last) : Kept s (s.setTimer k x) := by
  refine ⟨id, rfl, id, le_rfl, fun m => ?_, fun _ => rfl⟩
  by_cases h : m = k
  · rw [h, State.setTimer_get_self, hlast]
  · rw [State.setTimer_get_other s x h]

theorem setChannel_kept {k : Fin 4} {ch : Channel} (hlast : ch.last = s.audio.channels[k].last) :
    Kept s (s.setChannel k ch) := by
  refine ⟨id, rfl, id, le_rfl, fun _ => rfl, fun c => ?_⟩
  by_cases h : c = k
  · rw [h, State.setChannel_get_self, hlast]
  · rw [State.setChannel_get_other s ch h]

theorem setVideo_kept {v : Video} (h : v.fb = s.video.fb) : Kept s (s.setVideo v) :=
  ⟨id, h, id, le_rfl, fun _ => rfl, fun _ => rfl⟩

theorem setSuzy_kept {z : Suzy} (hbusy : z.busy = s.suzy.busy) (hstall : z.stallTotal = s.suzy.stallTotal) :
    Kept s (s.setSuzy z) :=
  ⟨id, rfl, hbusy.trans, hstall.ge, fun _ => rfl, fun _ => rfl⟩

theorem bumpFree_kept (s : State) : Kept s s.bumpFree := ⟨id, rfl, id, le_rfl, fun _ => rfl, fun _ => rfl⟩

theorem writeRam_kept (a : Addr) (v : Byte) (s : State) : Kept s (s.writeRam a v) :=
  ⟨fun h => Memory.write_wf h a v, rfl, id, le_rfl, fun _ => rfl, fun _ => rfl⟩

theorem recomputeIrq_kept (s : State) : Kept s (recomputeIrq s) := ⟨id, rfl, id, le_rfl, fun _ => rfl, fun _ => rfl⟩

theorem setPending_kept (s : State) (v : Byte) : Kept s (setPending s v) := ⟨id, rfl, id, le_rfl, fun _ => rfl, fun _ => rfl⟩

@[simp] theorem Channel.writeReg_last (ch : Channel) (k : Fin 8) (v : Byte) : (ch.writeReg k v).last = ch.last := by
  unfold Channel.writeReg
  split <;> rfl

/-- A write to Mikey's registers stores no `LAST`: none of them is addressable (R340). -/
theorem mikeyWrite_kept (off v : Byte) (s : State) : Kept s (mikeyWrite off v s) := by
  unfold mikeyWrite
  cases mikeyReg off with
  | none => exact Kept.refl s
  | some r =>
    cases r with
    | timerBkup n | timerCnt n | timerCtlb n => exact setTimer_kept (by rfl)
    | timerCtla n => exact Kept.trans (setTimer_kept (by rfl)) (recomputeIrq_kept _)
    | chan c k => exact setChannel_kept (Channel.writeReg_last _ k v)
    | atten c => exact setChannel_kept (by rfl)
    | pan | stereo => exact ⟨id, rfl, id, le_rfl, fun _ => rfl, fun _ => rfl⟩
    | intrst | intset => exact setPending_kept s _
    | dispctl | dispadrLo | dispadrHi | green i | bluered i => exact setVideo_kept rfl

@[simp] theorem Suzy.setWord_busy (z : Suzy) (v : Addr) (w : SuzyWord) : (z.setWord v w).busy = z.busy := by
  cases w <;> rfl

@[simp] theorem Suzy.setMathByte_busy (z : Suzy) (v : Byte) (r : MathByte) : (z.setMathByte v r).busy = z.busy := by
  cases r <;> rfl

@[simp] theorem Suzy.doMultiply_busy (test : MathSignTest) (z : Suzy) : (z.doMultiply test).busy = z.busy := by
  unfold Suzy.doMultiply
  dsimp only
  split <;> rfl

@[simp] theorem Suzy.doDivide_busy (free : Bool) (z : Suzy) : (z.doDivide free).busy = z.busy := by
  unfold Suzy.doDivide
  dsimp only
  split <;> rfl

theorem multiply_kept (s : State) : Kept s (multiply s) := setSuzy_kept (by simp) (by simp)

theorem divide_kept (s : State) : Kept s (divide s) := by
  have h := setSuzy_kept (Suzy.doDivide_busy (Config.divideByZeroOverflow s.freeCtr) s.suzy) (Suzy.doDivide_stallTotal _ _)
  unfold divide
  dsimp only
  split
  · exact h.trans (bumpFree_kept _)
  · exact h

theorem writeMath_kept (s : State) (v : Byte) (r : MathByte) : Kept s (writeMath s v r) := by
  have h := setSuzy_kept (Suzy.setMathByte_busy s.suzy v r) (Suzy.setMathByte_stallTotal s.suzy v r)
  unfold writeMath
  dsimp only
  split
  · exact h.trans (multiply_kept _)
  · exact h.trans (divide_kept _)
  all_goals exact h

theorem renderSprite_kept (a : Addr) (s : State) : Kept s (renderSprite a s) :=
  ⟨fun h => renderSprite_wf h a, rfl, id, le_rfl, fun _ => rfl, fun _ => rfl⟩

theorem walkChain_kept (left : Nat) (a : Addr) (s : State) : Kept s (walkChain left a s) := by
  induction left generalizing a s with
  | zero => exact Kept.refl s
  | succ left ih =>
    unfold walkChain
    dsimp only
    split
    · exact renderSprite_kept a s
    · exact (renderSprite_kept a s).trans (ih _ _)

/-- Charging the stall puts the engine to rest again, whatever it did after it was started (R361). -/
theorem chargeStall_kept (h : Kept (s.setSuzy { s.suzy with busy := true, stall := 0 }) t) : Kept s (chargeStall t) :=
  ⟨h.ram, h.fb, fun _ => rfl, h.stall.trans (Nat.le_add_right _ _), h.timers, h.channels⟩

theorem startSpriteEngine_kept (s : State) : Kept s (startSpriteEngine s) := by
  unfold startSpriteEngine
  dsimp only
  apply chargeStall_kept
  split_ifs
  · exact (bumpFree_kept _).trans (walkChain_kept _ _ _)
  · exact walkChain_kept _ _ _
  · exact bumpFree_kept _
  · exact Kept.refl _

theorem suzyWrite_kept (off v : Byte) (s : State) : Kept s (suzyWrite off v s) := by
  unfold suzyWrite
  cases suzyReg off with
  | none => exact Kept.refl s
  | some r =>
    cases r with
    | wordLo w | wordHi w => exact setSuzy_kept (by simp) (by simp)
    | math r => exact writeMath_kept s v r
    | sprgo =>
      simp only [suzyRegWrite]
      split
      · exact startSpriteEngine_kept s
      · exact Kept.refl s
    | sprsys => exact setSuzy_kept rfl rfl
    | joystick | switches | rcart b => exact Kept.refl s

theorem busStore_kept (a : Addr) (v : Byte) (s : State) : Kept s (busStore a v s) := by
  unfold busStore
  split
  · exact ⟨id, rfl, id, le_rfl, fun _ => rfl, fun _ => rfl⟩
  · exact suzyWrite_kept _ _ _
  · exact mikeyWrite_kept _ _ _
  · split
    · exact writeRam_kept a v s
    · exact Kept.refl s
  · exact writeRam_kept a v s

theorem afterRead_kept (k : ReadKind) (a : Addr) (s : State) : Kept s (afterRead k a s) := by
  constructor <;> simp

theorem cycle_kept (s : State) (e : BusEvent) : Kept s (s.cycle e) := ⟨id, rfl, id, le_rfl, fun _ => rfl, fun _ => rfl⟩

theorem withCore_kept (s : State) (c : CoreRegs) : Kept s (s.withCore c) := ⟨id, rfl, id, le_rfl, fun _ => rfl, fun _ => rfl⟩

theorem Does.kept (h : Does n s t) : Kept s t := by
  induction h with
  | refl s => exact Kept.refl s
  | read k a _ ih => exact ih.trans (afterRead_kept k a _)
  | idle _ ih => exact ih.trans (cycle_kept _ .idle)
  | write k a v _ ih => exact ih.trans ((cycle_kept _ _).trans (busStore_kept a v _))
  | regs c _ ih => exact ih.trans (withCore_kept _ c)
  | free _ ih => exact ih.trans (bumpFree_kept _)

/-- What no step reaches: the parameters (R41), the NMI input (R29) and the EEPROM (D42). -/
structure Fixed (s t : State) : Prop where
  params : t.params = s.params
  nmiLine : t.nmiLine = s.nmiLine
  eeprom : t.eeprom = s.eeprom

theorem Fixed.trans (h : Fixed s t) (g : Fixed t u) : Fixed s u :=
  ⟨g.params.trans h.params, g.nmiLine.trans h.nmiLine, g.eeprom.trans h.eeprom⟩

theorem SameCore.fixed (h : SameCore s t) : Fixed s t := ⟨h.params, h.nmiLine, h.eeprom⟩

theorem Ticked.fixed (h : Ticked s t) : Fixed s t := ⟨h.params, h.nmiLine, h.eeprom⟩

theorem Does.fixed (h : Does n s t) : Fixed s t := by
  induction h with
  | refl s => exact ⟨rfl, rfl, rfl⟩
  | read k a _ ih => exact ih.trans ⟨by simp, by simp, by simp⟩
  | idle _ ih => exact ih.trans ⟨rfl, rfl, rfl⟩
  | @write _ _ t k a v _ ih =>
    have hcycle : Fixed t (t.cycle (.write k a v)) := ⟨rfl, rfl, rfl⟩
    exact ih.trans (hcycle.trans (busStore_same a v _).fixed)
  | regs c _ ih => exact ih.trans ⟨rfl, rfl, rfl⟩
  | free _ ih => exact ih.trans ⟨rfl, rfl, rfl⟩

/-! ### The clock the devices see -/

/-- `n` cycles of the core move `CYC` up by at least as many: the sprite engine's stall only adds to them. -/
theorem Does.cyc_le (h : Does n s t) : s.cyc + n ≤ t.cyc := by
  have hcycles := h.clocked.cycles
  have hstall := h.kept.stall
  omega

/-- The devices' clock never goes back, whether or not it counts the stalls (R300, D21). -/
theorem Does.deviceTime_le (h : Does n s t) (hs : s.suzy.stallTotal ≤ s.cyc) : deviceTime s ≤ deviceTime t := by
  have hcyc := h.cyc_le
  have hcycles := h.clocked.cycles
  unfold deviceTime
  rw [h.fixed.params]
  split <;> omega

/-- Every action of the core keeps the invariant. -/
theorem Does.inv (h : Does n s t) (hi : Inv s) : Inv t := by
  have kept := h.kept
  have fixed := h.fixed
  have later := h.deviceTime_le hi.stall
  have hcycles := h.clocked.cycles
  refine ⟨kept.ram hi.ram, ?_, ?_, kept.busy hi.busy, ?_, fun n => ?_, fun c => ?_⟩
  · rw [kept.fb]
    exact hi.fb
  · rw [fixed.eeprom]
    exact hi.eeprom
  · have := hi.stall
    omega
  · rw [kept.timers n]
    exact (hi.timers n).trans later
  · rw [kept.channels c]
    exact (hi.channels c).trans later

/-! ### A step -/

/-- What a boundary does other than to execute is a chain of core actions too (R301); taking an NMI clears its latch first. -/
theorem boundary_does (h : boundary s = .done t) : ∃ b n, 0 < n ∧ Does n { s with nmiPending := b } t := by
  have idles : Does 1 s (idle s) := (Does.refl s).idle
  unfold boundary at h
  split at h
  · cases h
    exact ⟨_, 1, one_pos, idles⟩
  · cases h
    refine ⟨s.nmiPending, 1, one_pos, ?_⟩
    split
    · exact idles.setRun _
    · exact idles
  · split_ifs at h <;> cases h
    · exact ⟨false, _, by omega, (Does.refl _).interruptEntry nmiVector⟩
    · exact ⟨_, _, by omega, (Does.refl s).interruptEntry irqVector⟩

theorem memCycles_pos (cls : AccessClass) (m : MemMode) (s : State) : 0 < memCycles cls m s := by
  have data : 0 < dataCycles cls := by cases cls <;> decide
  exact data.trans_le (dataCycles_le cls m s)

theorem operandCycles_pos (o : Operand) (s : State) : 0 < operandCycles o s := by
  cases o with
  | imm v => exact two_pos
  | mem m => exact memCycles_pos .read m s

theorem rmwCycles_pos (o : RmwOperand) (s : State) : 0 < rmwCycles o s := by
  cases o with
  | acc => exact two_pos
  | mem m => exact memCycles_pos .modify m s

/-- Every instruction takes a cycle: its opcode fetch (R100). -/
theorem instrCycles_pos (i : Instr) (s : State) : 0 < instrCycles i s := by
  cases i with
  | lda o | ldx o | ldy o | and o | ora o | eor o | cmp o | cpx o | cpy o | bit o => exact operandCycles_pos o s
  | adc o | sbc o => exact Nat.add_pos_left (operandCycles_pos o s) _
  | sta m | stx m | sty m | stz m => exact memCycles_pos .write m s
  | tsb m | trb m => exact memCycles_pos .modify m s
  | asl o | lsr o | rol o | ror o | inc o | dec o => exact rmwCycles_pos o s
  | bcc off | bcs off | beq off | bne off | bmi off | bpl off | bvc off | bvs off | bra off =>
    exact Nat.add_pos_left two_pos _
  | jmp j => cases j <;> exact Nat.succ_pos _
  | nop1 op | nop2 op b1 | nop3 op w => exact Nat.add_pos_left (Nat.succ_pos _) _
  | bbr0 z off | bbr1 z off | bbr2 z off | bbr3 z off | bbr4 z off | bbr5 z off | bbr6 z off | bbr7 z off
  | bbs0 z off | bbs1 z off | bbs2 z off | bbs3 z off | bbs4 z off | bbs5 z off | bbs6 z off | bbs7 z off =>
    exact Nat.add_pos_left (Nat.succ_pos _) _
  | _ => exact Nat.succ_pos _

/-- WHAT A STEP IS, once: a cycle or more of core actions, from a fresh event record and with the NMI latch as the boundary left
it, then the devices' tick (R300). -/
theorem step_does (h : step s = .next t) :
    ∃ b n u, 0 < n ∧ Does n { beginStep s with nmiPending := b } u ∧ t = platformTick u := by
  unfold step at h
  split at h
  · next u hb =>
    obtain ⟨b, n, hn, hd⟩ := boundary_does hb
    cases h
    exact ⟨b, n, u, hn, hd, rfl⟩
  · split at h <;> cases h
    next u he => exact ⟨_, _, u, instrCycles_pos _ _, exec_does he, rfl⟩

/-! ### The devices' tick -/

/-- A byte of a line that exists lands inside the frame buffer (R350, R352). -/
theorem Video.renderByte_wf (v : Video) (ram : List Host.Cell) {fb : List (Nat × BitVec 32)} {i : Nat}
    (hline : v.scanline < displayHeight) (hi : i < bytesPerLine) (h : Cells.wfFrom black displayPixels 0 fb = true) :
    Cells.wfFrom black displayPixels 0 (v.renderByte ram fb i) = true := by
  unfold Video.renderByte
  simp only [displayHeight, bytesPerLine, displayWidth, displayPixels] at *
  exact Cells.write_wf (Cells.write_wf h (Nat.zero_le _) (by omega)) (Nat.zero_le _) (by omega)

theorem Video.horizontal_wf (v : Video) (ram : List Host.Cell) (h : Cells.wfFrom black displayPixels 0 v.fb = true) :
    Cells.wfFrom black displayPixels 0 (v.horizontal ram).fb = true := by
  unfold Video.horizontal Video.renderLine
  dsimp only
  split
  · next hdraw =>
    exact List.foldlRecOn (motive := fun fb => Cells.wfFrom black displayPixels 0 fb = true) (List.range bytesPerLine)
      (v.renderByte ram) h fun fb hfb i hi => v.renderByte_wf ram hdraw.2 (List.mem_range.mp hi) hfb
  · exact h

/-- What a decrement, cascades and hooks included, leaves of each clock: its `LAST` and its control byte; and the frame buffer
stays canonical (R344, R352, R371). -/
structure Counted (s t : State) : Prop where
  fb : Cells.wfFrom black displayPixels 0 s.video.fb = true → Cells.wfFrom black displayPixels 0 t.video.fb = true
  timers : ∀ n : Fin 8, t.timers[n].last = s.timers[n].last ∧ t.timers[n].ctla = s.timers[n].ctla
  channels : ∀ c : Fin 4, t.audio.channels[c].last = s.audio.channels[c].last ∧
    t.audio.channels[c].ctl = s.audio.channels[c].ctl

theorem Counted.refl (s : State) : Counted s s := ⟨id, fun _ => ⟨rfl, rfl⟩, fun _ => ⟨rfl, rfl⟩⟩

theorem Counted.trans (h : Counted s t) (g : Counted t u) : Counted s u where
  fb := g.fb ∘ h.fb
  timers n := ⟨(g.timers n).1.trans (h.timers n).1, (g.timers n).2.trans (h.timers n).2⟩
  channels c := ⟨(g.channels c).1.trans (h.channels c).1, (g.channels c).2.trans (h.channels c).2⟩

theorem setTimer_counted {k : Fin 8} {x : Timer} (hlast : x.last = s.timers[k].last) (hctl : x.ctla = s.timers[k].ctla) :
    Counted s (s.setTimer k x) := by
  refine ⟨id, fun m => ?_, fun _ => ⟨rfl, rfl⟩⟩
  by_cases h : m = k
  · rw [h, State.setTimer_get_self]
    exact ⟨hlast, hctl⟩
  · rw [State.setTimer_get_other s x h]
    exact ⟨rfl, rfl⟩

theorem setChannel_counted {k : Fin 4} {ch : Channel} (hlast : ch.last = s.audio.channels[k].last)
    (hctl : ch.ctl = s.audio.channels[k].ctl) : Counted s (s.setChannel k ch) := by
  refine ⟨id, fun _ => ⟨rfl, rfl⟩, fun c => ?_⟩
  by_cases h : c = k
  · rw [h, State.setChannel_get_self]
    exact ⟨hlast, hctl⟩
  · rw [State.setChannel_get_other s ch h]
    exact ⟨rfl, rfl⟩

theorem decrementChannel_counted (fuel : Nat) (c : Fin 4) (s : State) : Counted s (decrementChannel fuel c s) := by
  induction fuel generalizing c s with
  | zero => exact Counted.refl s
  | succ fuel ih =>
    have under : Counted s (s.setChannel c s.audio.channels[c].underflow) := setChannel_counted rfl rfl
    unfold decrementChannel
    dsimp only
    split_ifs
    · exact setChannel_counted rfl rfl
    · exact under.trans (ih _ _)
    · exact under
    · exact under

theorem audioCascade_counted (c : Fin 4) (s : State) : Counted s (audioCascade c s) := by
  unfold audioCascade
  split
  · exact decrementChannel_counted _ _ _
  · exact Counted.refl s

theorem raisePending_counted (k : Fin 8) (s : State) : Counted s (raisePending k s) := by
  unfold raisePending
  split
  · exact ⟨id, fun _ => ⟨rfl, rfl⟩, fun _ => ⟨rfl, rfl⟩⟩
  · exact Counted.refl s

theorem videoHook_counted (k : Fin 8) (s : State) : Counted s (videoHook k s) := by
  unfold videoHook
  split_ifs
  · exact ⟨s.video.horizontal_wf s.ram, fun _ => ⟨rfl, rfl⟩, fun _ => ⟨rfl, rfl⟩⟩
  · exact ⟨id, fun _ => ⟨rfl, rfl⟩, fun _ => ⟨rfl, rfl⟩⟩
  · exact Counted.refl s

theorem decrementTimer_counted (fuel : Nat) (k : Fin 8) (s : State) : Counted s (decrementTimer fuel k s) := by
  induction fuel generalizing k s with
  | zero => exact Counted.refl s
  | succ fuel ih =>
    by_cases hcnt : s.timers[k].cnt = 0
    · rw [decrementTimer_zero fuel hcnt]
      dsimp only
      have reload : Counted s (s.setTimer k s.timers[k].underflow) := setTimer_counted rfl rfl
      have under := (reload.trans (raisePending_counted k _)).trans (videoHook_counted k _)
      have toAudio : ∀ v, Counted s v → Counted s (if k = 7 then audioCascade 0 v else v) := by
        intro v hv
        split
        · exact hv.trans (audioCascade_counted 0 v)
        · exact hv
      apply toAudio
      cases timerSucc k with
      | none => exact under
      | some m =>
        dsimp only
        split
        · exact under.trans (ih _ _)
        · exact under
    · rw [decrementTimer_pos fuel hcnt]
      exact setTimer_counted rfl rfl

/-- No timer and no channel is ahead of `now`, and the frame buffer is canonical: the invariant's part that a tick moves. -/
structure InTime (now : Nat) (s : State) : Prop where
  fb : Cells.wfFrom black displayPixels 0 s.video.fb = true
  timers : ∀ n : Fin 8, s.timers[n].last ≤ now
  channels : ∀ c : Fin 4, s.audio.channels[c].last ≤ now

variable {now : Nat}

theorem Counted.inTime (g : Counted s t) (h : InTime now s) : InTime now t where
  fb := g.fb h.fb
  timers n := (g.timers n).1.trans_le (h.timers n)
  channels c := (g.channels c).1.trans_le (h.channels c)

theorem InTime.setTimer (h : InTime now s) (k : Fin 8) {x : Timer} (hx : x.last ≤ now) : InTime now (s.setTimer k x) := by
  refine ⟨h.fb, fun m => ?_, h.channels⟩
  by_cases hm : m = k
  · rwa [hm, State.setTimer_get_self]
  · rw [State.setTimer_get_other s x hm]
    exact h.timers m

theorem InTime.setChannel (h : InTime now s) (k : Fin 4) {ch : Channel} (hx : ch.last ≤ now) :
    InTime now (s.setChannel k ch) := by
  refine ⟨h.fb, h.timers, fun c => ?_⟩
  by_cases hc : c = k
  · rwa [hc, State.setChannel_get_self]
  · rw [State.setChannel_get_other s ch hc]
    exact h.channels c

/-- One period moves the timer's `LAST` by the period and leaves its control byte (R343). -/
theorem advanceTimer_last (k : Fin 8) (s : State) :
    (advanceTimer k s).timers[k].last = s.timers[k].last + clockPeriod s.timers[k].ctla ∧
      (advanceTimer k s).timers[k].ctla = s.timers[k].ctla := by
  have h := (decrementTimer_counted 4 k
    (s.setTimer k { s.timers[k] with last := s.timers[k].last + clockPeriod s.timers[k].ctla })).timers k
  rwa [State.setTimer_get_self] at h

theorem advanceChannel_last (k : Fin 4) (s : State) :
    (advanceChannel k s).audio.channels[k].last = s.audio.channels[k].last + clockPeriod s.audio.channels[k].ctl ∧
      (advanceChannel k s).audio.channels[k].ctl = s.audio.channels[k].ctl := by
  have h := (decrementChannel_counted 4 k
    (s.setChannel k
      { s.audio.channels[k] with last := s.audio.channels[k].last + clockPeriod s.audio.channels[k].ctl })).channels k
  rwa [State.setChannel_get_self] at h

/-- As many periods as have elapsed do not take a timer past `now`. -/
theorem InTime.advanceTimers (k : Fin 8) (j : Nat) (h : InTime now s)
    (hj : s.timers[k].last + j * clockPeriod s.timers[k].ctla ≤ now) : InTime now ((advanceTimer k)^[j] s) := by
  induction j generalizing s with
  | zero => exact h
  | succ j ih =>
    obtain ⟨hlast, hctl⟩ := advanceTimer_last k s
    rw [Nat.succ_mul] at hj
    rw [Function.iterate_succ_apply]
    refine ih ?_ (by rw [hlast, hctl]; omega)
    exact (decrementTimer_counted 4 k _).inTime (h.setTimer k (by dsimp only; omega))

theorem InTime.advanceChannels (k : Fin 4) (j : Nat) (h : InTime now s)
    (hj : s.audio.channels[k].last + j * clockPeriod s.audio.channels[k].ctl ≤ now) :
    InTime now ((advanceChannel k)^[j] s) := by
  induction j generalizing s with
  | zero => exact h
  | succ j ih =>
    obtain ⟨hlast, hctl⟩ := advanceChannel_last k s
    rw [Nat.succ_mul] at hj
    rw [Function.iterate_succ_apply]
    refine ih ?_ (by rw [hlast, hctl]; omega)
    exact (decrementChannel_counted 4 k _).inTime (h.setChannel k (by dsimp only; omega))

/-- The whole periods between `last` and `now` end at `now` at the latest. -/
theorem add_div_mul_le {last : Nat} (h : last ≤ now) (period : Nat) : last + (now - last) / period * period ≤ now := by
  have := Nat.div_mul_le_self (now - last) period
  omega

theorem InTime.tickTimer (h : InTime now s) (k : Fin 8) : InTime now (tickTimer now s k) := by
  unfold Machine.tickTimer
  dsimp only
  split
  · exact h.advanceTimers k _ (add_div_mul_le (h.timers k) _)
  · exact h.setTimer k le_rfl

theorem InTime.tickChannel (h : InTime now s) (k : Fin 4) : InTime now (tickChannel now s k) := by
  unfold Machine.tickChannel
  dsimp only
  split
  · exact h.advanceChannels k _ (add_div_mul_le (h.channels k) _)
  · exact h.setChannel k le_rfl

theorem platformTick_inTime (h : InTime (deviceTime s) s) : InTime (deviceTime s) (platformTick s) := by
  have timers : InTime (deviceTime s) (timerTick (deviceTime s) s) :=
    List.foldlRecOn _ _ h fun _ hu k _ => hu.tickTimer k
  have channels : InTime (deviceTime s) (audioTick (deviceTime s) (timerTick (deviceTime s) s)) :=
    List.foldlRecOn _ _ timers fun _ hu k _ => hu.tickChannel k
  exact ⟨channels.fb, channels.timers, channels.channels⟩

/-- The devices' tick keeps the invariant. -/
theorem platformTick_inv (h : Inv s) : Inv (platformTick s) := by
  have tick := platformTick_ticked s
  have inTime := platformTick_inTime ⟨h.fb, h.timers, h.channels⟩
  have clock : deviceTime (platformTick s) = deviceTime s := by
    simp only [deviceTime, tick.params, tick.cyc, tick.suzy]
  refine ⟨?_, inTime.fb, ?_, ?_, ?_, ?_, ?_⟩
  · rw [tick.ram]
    exact h.ram
  · rw [tick.eeprom]
    exact h.eeprom
  · rw [tick.suzy]
    exact h.busy
  · rw [tick.suzy, tick.cyc]
    exact h.stall
  · rw [clock]
    exact inTime.timers
  · rw [clock]
    exact inTime.channels

/-- Settles O44: a step is core actions and then the tick (`step_does`); the actions keep the invariant (`Does.inv`), and so does
the tick (`platformTick_inv`). -/
theorem everyStepKeepsTheInvariant : Obligations.EveryStepKeepsTheInvariant := by
  intro s t hi h
  obtain ⟨b, n, u, -, hd, rfl⟩ := step_does h
  have start : Inv { beginStep s with nmiPending := b } :=
    ⟨hi.ram, hi.fb, hi.eeprom, hi.busy, hi.stall, hi.timers, hi.channels⟩
  exact platformTick_inv (hd.inv start)

/-- Settles O42: the core actions of a step take a cycle or more, and the tick ends by computing the line (R347). -/
theorem everyStepMovesTheClockAndSettlesTheIrqLine : Obligations.EveryStepMovesTheClockAndSettlesTheIrqLine := by
  intro s t h
  obtain ⟨b, n, u, hn, hd, rfl⟩ := step_does h
  have tick := platformTick_ticked u
  have fixed := hd.fixed.trans tick.fixed
  have moved : s.cyc + n ≤ u.cyc := hd.cyc_le
  refine ⟨?_, irqAsserted_iff _, fixed.params, fixed.nmiLine, fixed.eeprom⟩
  rw [tick.cyc]
  omega

end Sys2Proof.Machine

namespace Sys2Proof.Machine

/-! ## Who writes what: O43

Each register write, flag write, push and bus write that a meaning makes is checked against the rules' lists of writers where it
is made (`WritesOnly.setA` and its kin ask that the instruction be listed); along a chain of actions the checks add up
(`WritesOnly.trans`), and everything an instruction does besides those writes is a `Quiet` stretch of reads. -/

variable {ins : Instr} {cd : Bool} {n : Nat} {p q : Flags} {s t u : State}

/-- From `p` to `q` only flags changed that `ins` is listed to write (R26); `BRK` changes `D` only with `cd`, which stands for
`INT_CLEARS_D`. -/
structure FlagsOnly (ins : Instr) (cd : Bool) (p q : Flags) : Prop where
  n : q.n ≠ p.n → writesN ins = true
  z : q.z ≠ p.z → writesZ ins = true
  c : q.c ≠ p.c → writesC ins = true
  v : q.v ≠ p.v → writesV ins = true
  i : q.i ≠ p.i → writesI ins = true
  d : q.d ≠ p.d → writesD ins = true ∨ (cd = true ∧ ∃ sig, ins = .brk sig)

/-- From `s` to `t` only registers, flags and bytes of RAM changed that `ins` is listed to write (R20 to R22, R26, R28). -/
structure WritesOnly (ins : Instr) (cd : Bool) (s t : State) : Prop where
  a : t.a ≠ s.a → writesA ins = true
  x : t.x ≠ s.x → writesX ins = true
  y : t.y ≠ s.y → writesY ins = true
  sp : t.sp ≠ s.sp → writesS ins = true
  run : t.run ≠ s.run → ins = .wai ∨ ins = .stp
  flags : FlagsOnly ins cd s.p t.p
  memory : ∀ b, Memory.read t.ram b ≠ Memory.read s.ram b → writesMemory ins = true

/-! ### Chains of actions -/

/-- What changed over two stretches changed over one of them. -/
theorem ne_trans_imp {α : Type} {P : Prop} {x y z : α} (h : y ≠ x → P) (g : z ≠ y → P) (hne : z ≠ x) : P := by
  by_cases e : y = x
  · exact g (e ▸ hne)
  · exact h e

theorem FlagsOnly.refl (p : Flags) : FlagsOnly ins cd p p :=
  ⟨absurd rfl, absurd rfl, absurd rfl, absurd rfl, absurd rfl, absurd rfl⟩

theorem FlagsOnly.trans {r : Flags} (h : FlagsOnly ins cd p q) (g : FlagsOnly ins cd q r) : FlagsOnly ins cd p r :=
  ⟨ne_trans_imp h.n g.n, ne_trans_imp h.z g.z, ne_trans_imp h.c g.c, ne_trans_imp h.v g.v, ne_trans_imp h.i g.i,
    ne_trans_imp h.d g.d⟩

theorem WritesOnly.trans (h : WritesOnly ins cd s t) (g : WritesOnly ins cd t u) : WritesOnly ins cd s u :=
  ⟨ne_trans_imp h.a g.a, ne_trans_imp h.x g.x, ne_trans_imp h.y g.y, ne_trans_imp h.sp g.sp, ne_trans_imp h.run g.run,
    h.flags.trans g.flags, fun b => ne_trans_imp (h.memory b) (g.memory b)⟩

/-- States that read alike, in the core but for `PC` and the flags, and in RAM. -/
theorem WritesOnly.of_core {w : Addr} (hcore : t.core = { s.core with pc := w, p := q }) (hflags : FlagsOnly ins cd s.p q)
    (hmem : ∀ b, Memory.read t.ram b ≠ Memory.read s.ram b → writesMemory ins = true) : WritesOnly ins cd s t := by
  have hp : t.p = q := congrArg CoreRegs.p hcore
  exact ⟨absurd (congrArg CoreRegs.a hcore), absurd (congrArg CoreRegs.x hcore), absurd (congrArg CoreRegs.y hcore),
    absurd (congrArg CoreRegs.sp hcore), absurd (congrArg CoreRegs.run hcore), hp ▸ hflags, hmem⟩

/-- Reads and idle cycles write nothing; the flags may be set among them. -/
theorem WritesOnly.of_quiet {w : Addr} (hq : Quiet n s t) (hcore : t.core = { s.core with pc := w, p := q })
    (hflags : FlagsOnly ins cd s.p q) : WritesOnly ins cd s t :=
  .of_core hcore hflags fun b => absurd (hq.memory b)

/-- Reads and idle cycles that leave the flags too. -/
theorem WritesOnly.of_reads {w : Addr} (hq : Quiet n s t) (hcore : t.core = { s.core with pc := w }) : WritesOnly ins cd s t :=
  .of_quiet hq hcore (.refl s.p)

theorem WritesOnly.refl (s : State) : WritesOnly ins cd s s := .of_reads (w := s.pc) (.refl s) rfl

/-! ### One action, with the instruction listed for it -/

namespace WritesOnly

theorem setA (h : WritesOnly ins cd s t) (listed : writesA ins = true) (v : Byte) : WritesOnly ins cd s (t.setA v) :=
  ⟨fun _ => listed, h.x, h.y, h.sp, h.run, h.flags, h.memory⟩

theorem setX (h : WritesOnly ins cd s t) (listed : writesX ins = true) (v : Byte) : WritesOnly ins cd s (t.setX v) :=
  ⟨h.a, fun _ => listed, h.y, h.sp, h.run, h.flags, h.memory⟩

theorem setY (h : WritesOnly ins cd s t) (listed : writesY ins = true) (v : Byte) : WritesOnly ins cd s (t.setY v) :=
  ⟨h.a, h.x, fun _ => listed, h.sp, h.run, h.flags, h.memory⟩

theorem setSp (h : WritesOnly ins cd s t) (listed : writesS ins = true) (v : Byte) : WritesOnly ins cd s (t.setSp v) :=
  ⟨h.a, h.x, h.y, fun _ => listed, h.run, h.flags, h.memory⟩

theorem setRun (h : WritesOnly ins cd s t) (listed : ins = .wai ∨ ins = .stp) (r : RunState) : WritesOnly ins cd s (t.setRun r) :=
  ⟨h.a, h.x, h.y, h.sp, fun _ => listed, h.flags, h.memory⟩

theorem setP (h : WritesOnly ins cd s t) {f : Flags} (hf : FlagsOnly ins cd t.p f) : WritesOnly ins cd s (t.setP f) :=
  ⟨h.a, h.x, h.y, h.sp, h.run, h.flags.trans hf, h.memory⟩

theorem setPc (h : WritesOnly ins cd s t) (w : Addr) : WritesOnly ins cd s (t.setPc w) :=
  ⟨h.a, h.x, h.y, h.sp, h.run, h.flags, h.memory⟩

theorem bumpFree (h : WritesOnly ins cd s t) : WritesOnly ins cd s t.bumpFree :=
  ⟨h.a, h.x, h.y, h.sp, h.run, h.flags, h.memory⟩

theorem idle (h : WritesOnly ins cd s t) : WritesOnly ins cd s (idle t) :=
  ⟨h.a, h.x, h.y, h.sp, h.run, h.flags, h.memory⟩

theorem read (h : WritesOnly ins cd s t) (k : ReadKind) (a : Addr) : WritesOnly ins cd s (afterRead k a t) :=
  h.trans (.of_reads (w := t.pc) ((Quiet.refl t).afterRead k a) (afterRead_core k a t))

/-- A bus write reaches no register of the core; what it changes in RAM, a listed instruction changes. -/
theorem write (h : WritesOnly ins cd s t) (listed : writesMemory ins = true) (k : WriteKind) (a : Addr) (v : Byte) :
    WritesOnly ins cd s (memWrite k a v t) :=
  h.trans (.of_core (w := t.pc) (memWrite_core k a v t) (.refl t.p) fun _ _ => listed)

theorem setNZ (h : WritesOnly ins cd s t) (hn : writesN ins = true) (hz : writesZ ins = true) (v : Byte) :
    WritesOnly ins cd s (t.setNZ v) :=
  h.setP ⟨fun _ => hn, fun _ => hz, absurd rfl, absurd rfl, absurd rfl, absurd rfl⟩

/-! ### The shared operations -/

theorem fetchOpcode (h : WritesOnly ins cd s t) : WritesOnly ins cd s (fetchOpcode t) := (h.read _ _).setPc _

theorem fetchOperand (h : WritesOnly ins cd s t) : WritesOnly ins cd s (fetchOperand t) := (h.read _ _).setPc _

theorem fetchOperands (h : WritesOnly ins cd s t) (k : Nat) : WritesOnly ins cd s (Machine.fetchOperand^[k] t) := by
  induction k generalizing t with
  | zero => exact h
  | succ k ih =>
    rw [Function.iterate_succ_apply]
    exact ih h.fetchOperand

theorem idles (h : WritesOnly ins cd s t) (k : Nat) : WritesOnly ins cd s (Machine.idle^[k] t) := by
  induction k generalizing t with
  | zero => exact h
  | succ k ih =>
    rw [Function.iterate_succ_apply]
    exact ih h.idle

/-- The two reads every implied instruction begins with (R101). -/
theorem implied (s : State) : WritesOnly ins cd s (implied (Machine.fetchOpcode s)) := ((refl s).fetchOpcode).read _ _

theorem readOperand (o : Operand) (s : State) : WritesOnly ins cd s (readOperand o (Machine.fetchOpcode s)).2 :=
  .of_reads (readOperand_quiet o s) (readOperand_core o s)

theorem storeOperand (listed : writesMemory ins = true) (m : MemMode) (v : Byte) (s : State) :
    WritesOnly ins cd s (storeOperand m v (Machine.fetchOpcode s)) :=
  write (.of_reads (resolve_quiet .write m s) (resolve_core .write m s)) listed _ _ _

/-- A read-modify-write writes memory, and the flags that its function on the byte writes (R200). -/
theorem modifyMemory (listed : writesMemory ins = true) (m : MemMode) {f : Byte → Flags → Byte × Flags} (s : State)
    (hf : ∀ b p, FlagsOnly ins cd p (f b p).2) : WritesOnly ins cd s (modifyMemory m f (Machine.fetchOpcode s)) := by
  obtain ⟨u, hu, hq, hcore⟩ := modifyMemory_eq m f s
  rw [hu]
  exact write (.of_quiet hq hcore (hf _ _)) listed _ _ _

/-- The same operation in its two forms: `A` is written by the accumulator form (R20), memory by the other. -/
theorem modifyOperand (mk : RmwOperand → Instr) (hacc : writesA (mk .acc) = true)
    (hmem : ∀ m, writesMemory (mk (.mem m)) = true) {f : Byte → Flags → Byte × Flags}
    (hf : ∀ o b p, FlagsOnly (mk o) cd p (f b p).2) (o : RmwOperand) (s : State) :
    WritesOnly (mk o) cd s (modifyOperand o f (Machine.fetchOpcode s)) := by
  cases o with
  | acc => exact ((implied s).setA hacc _).setP (hf _ _ _)
  | mem m => exact modifyMemory (hmem m) m s (hf _)

theorem push (h : WritesOnly ins cd s t) (hs : writesS ins = true) (hm : writesMemory ins = true) (v : Byte) :
    WritesOnly ins cd s (push v t) := (h.write hm _ _ _).setSp hs _

theorem pushPc (h : WritesOnly ins cd s t) (hs : writesS ins = true) (hm : writesMemory ins = true) :
    WritesOnly ins cd s (pushPc t) := (h.push hs hm _).push hs hm _

theorem pull (h : WritesOnly ins cd s t) (hs : writesS ins = true) : WritesOnly ins cd s (pull t).2 := (h.setSp hs _).read _ _

theorem pullPc (h : WritesOnly ins cd s t) (hs : writesS ins = true) : WritesOnly ins cd s (pullPc t) :=
  ((h.pull hs).pull hs).setPc _

theorem branch (h : WritesOnly ins cd s t) (taken : Bool) (off : Byte) : WritesOnly ins cd s (branch taken off t) :=
  h.trans (.of_reads ((Quiet.refl t).branch taken off) (branch_core taken off t))

theorem branchOnBit (k : Nat) (want : Bool) (z off : Byte) (s : State) : WritesOnly ins cd s (branchOnBit k want z off s) :=
  (((refl s).fetchOpcode.fetchOperand.read _ _).read _ _).branch _ off

theorem jump (j : JumpTarget) (s : State) : WritesOnly ins cd s (resolveJump j (Machine.fetchOpcode s)).2 := by
  have fetched : WritesOnly ins cd s (Machine.fetchOperand (Machine.fetchOperand (Machine.fetchOpcode s))) :=
    (refl s).fetchOpcode.fetchOperand.fetchOperand
  cases j with
  | abs w => exact fetched
  | ind w => exact (fetched.read _ _).read _ _
  | iax w => exact (fetched.idle.read _ _).read _ _

theorem undefinedOpcode {op : Byte} {k : Nat} (h : undefinedOpcode op k s = .next t) : WritesOnly ins cd s t := by
  unfold Machine.undefinedOpcode at h
  dsimp only at h
  split at h <;> cases h
  exact ((refl s).fetchOpcode.fetchOperands k).idles _

end WritesOnly

/-! ### The flag computations -/

/-- The arithmetic flags: `I` and `D` stay. -/
theorem FlagsOnly.nzcv (hn : writesN ins = true) (hz : writesZ ins = true) (hc : writesC ins = true) (hv : writesV ins = true)
    (p : Flags) (n z c v : Bool) : FlagsOnly ins cd p { p with n := n, z := z, c := c, v := v } :=
  ⟨fun _ => hn, fun _ => hz, fun _ => hc, fun _ => hv, absurd rfl, absurd rfl⟩

/-- The flags of compares, shifts and rotates. -/
theorem FlagsOnly.nzc (hn : writesN ins = true) (hz : writesZ ins = true) (hc : writesC ins = true) (p : Flags) (n z c : Bool) :
    FlagsOnly ins cd p { p with n := n, z := z, c := c } :=
  ⟨fun _ => hn, fun _ => hz, fun _ => hc, absurd rfl, absurd rfl, absurd rfl⟩

/-- The flags of increments and decrements. -/
theorem FlagsOnly.nz (hn : writesN ins = true) (hz : writesZ ins = true) (p : Flags) (n z : Bool) :
    FlagsOnly ins cd p { p with n := n, z := z } :=
  ⟨fun _ => hn, fun _ => hz, absurd rfl, absurd rfl, absurd rfl, absurd rfl⟩

/-- The flag of `TSB`, `TRB` and `BIT` immediate. -/
theorem FlagsOnly.zero (hz : writesZ ins = true) (p : Flags) (z : Bool) : FlagsOnly ins cd p { p with z := z } :=
  ⟨absurd rfl, fun _ => hz, absurd rfl, absurd rfl, absurd rfl, absurd rfl⟩

/-- `BIT`: with an operand in memory `N` and `V` too (R182). -/
theorem FlagsOnly.bit (o : Operand) (a m : Byte) (p : Flags) :
    FlagsOnly (.bit o) cd p (bitFlags (operandInMemory o) a m p) := by
  cases o with
  | imm _ => exact .zero rfl p _
  | mem _ => exact ⟨fun _ => rfl, fun _ => rfl, absurd rfl, fun _ => rfl, absurd rfl, absurd rfl⟩

/-- Taking an exception sets `I`, and clears `D` under `INT_CLEARS_D` only (R246). -/
theorem FlagsOnly.brk (sig : Byte) (p : Flags) : FlagsOnly (.brk sig) cd p (maskFlags cd p) := by
  refine ⟨absurd rfl, absurd rfl, absurd rfl, absurd rfl, fun _ => rfl, fun hd => ?_⟩
  cases cd with
  | false => exact absurd rfl hd
  | true => exact .inr ⟨rfl, sig, rfl⟩

/-- The pulled status writes every flag, and is listed for every one (R26). -/
theorem FlagsOnly.pulled (hi : ins = .plp ∨ ins = .rti) (p q : Flags) : FlagsOnly ins cd p q := by
  obtain rfl | rfl := hi <;>
    exact ⟨fun _ => rfl, fun _ => rfl, fun _ => rfl, fun _ => rfl, fun _ => rfl, fun _ => .inl rfl⟩

/-! ### Arithmetic and exceptions -/

section
variable (hA : writesA ins = true) (hN : writesN ins = true) (hZ : writesZ ins = true) (hC : writesC ins = true)
  (hV : writesV ins = true)
include hA hN hZ hC hV

/-- A result in `A` with its four flags. -/
theorem WritesOnly.setResult (h : WritesOnly ins cd s t) (r : Byte) (n z c v : Bool) :
    WritesOnly ins cd s ((t.setA r).setP { t.p with n := n, z := z, c := c, v := v }) :=
  (h.setA hA r).setP (.nzcv hN hZ hC hV t.p n z c v)

/-- Decimal arithmetic, on valid operands or not (R172, R173). -/
theorem WritesOnly.decimalResult (h : WritesOnly ins cd s t) (valid : Bool) (r : Byte × Bool) :
    WritesOnly ins cd s (decimalResult valid r t) := by
  cases valid <;> exact (h.setResult hA hN hZ hC hV _ _ _ _ _).bumpFree

theorem WritesOnly.addOperand (h : WritesOnly ins cd s t) (m : Byte) : WritesOnly ins cd s (addOperand m t) := by
  unfold Machine.addOperand
  split
  · exact (h.decimalResult hA hN hZ hC hV _ _).idle
  · exact h.setResult hA hN hZ hC hV _ _ _ _ _

theorem WritesOnly.subOperand (h : WritesOnly ins cd s t) (m : Byte) : WritesOnly ins cd s (subOperand m t) := by
  unfold Machine.subOperand
  split
  · exact (h.decimalResult hA hN hZ hC hV _ _).idle
  · exact h.setResult hA hN hZ hC hV _ _ _ _ _

end

/-- Taking an exception for `BRK`: three pushes, the mask, the vector (R246). -/
theorem WritesOnly.takeException {sig : Byte} (h : WritesOnly (.brk sig) cd s t) (hcd : t.params.intClearsD = cd) (b : Bool)
    (vec : Addr) : WritesOnly (.brk sig) cd s (takeException b vec t) := by
  have pushed := (h.pushPc rfl rfl).push rfl rfl ((Machine.pushPc t).p.statusByte b)
  have mask : (Machine.push ((Machine.pushPc t).p.statusByte b) (Machine.pushPc t)).params.intClearsD = cd := by
    simpa [Machine.pushPc] using hcd
  unfold Machine.takeException
  dsimp only
  rw [mask]
  exact (((pushed.setP (.brk sig _)).read _ _).read _ _).setPc _

/-- EVERY INSTRUCTION writes what it is listed for and nothing else. -/
theorem exec_writesOnly (h : exec ins s = .next t) : WritesOnly ins s.params.intClearsD s t := by
  cases ins with
  | lda o | and o | ora o | eor o => cases h; exact ((WritesOnly.readOperand o s).setA rfl _).setNZ rfl rfl _
  | ldx o => cases h; exact ((WritesOnly.readOperand o s).setX rfl _).setNZ rfl rfl _
  | ldy o => cases h; exact ((WritesOnly.readOperand o s).setY rfl _).setNZ rfl rfl _
  | sta m | stx m | sty m | stz m => cases h; exact .storeOperand rfl m _ s
  | tax | tsx | inx | dex => cases h; exact ((WritesOnly.implied s).setX rfl _).setNZ rfl rfl _
  | tay | iny | dey => cases h; exact ((WritesOnly.implied s).setY rfl _).setNZ rfl rfl _
  | txa | tya => cases h; exact ((WritesOnly.implied s).setA rfl _).setNZ rfl rfl _
  | txs => cases h; exact (WritesOnly.implied s).setSp rfl _
  | pha | phx | phy | php => cases h; exact (WritesOnly.implied s).push rfl rfl _
  | pla => cases h; exact ((((WritesOnly.implied s).read _ _).pull rfl).setA rfl _).setNZ rfl rfl _
  | plx => cases h; exact ((((WritesOnly.implied s).read _ _).pull rfl).setX rfl _).setNZ rfl rfl _
  | ply => cases h; exact ((((WritesOnly.implied s).read _ _).pull rfl).setY rfl _).setNZ rfl rfl _
  | plp => cases h; exact (((WritesOnly.implied s).read _ _).pull rfl).setP (.pulled (.inl rfl) _ _)
  | adc o => cases h; exact (WritesOnly.readOperand o s).addOperand rfl rfl rfl rfl rfl _
  | sbc o => cases h; exact (WritesOnly.readOperand o s).subOperand rfl rfl rfl rfl rfl _
  | cmp o | cpx o | cpy o => cases h; exact (WritesOnly.readOperand o s).setP (.nzc rfl rfl rfl _ _ _ _)
  | bit o => cases h; exact (WritesOnly.readOperand o s).setP (.bit o _ _ _)
  | tsb m | trb m => cases h; exact .modifyMemory rfl m s fun _ p => .zero rfl p _
  | asl o => cases h; exact .modifyOperand .asl rfl (fun _ => rfl) (fun _ _ p => .nzc rfl rfl rfl p _ _ _) o s
  | lsr o => cases h; exact .modifyOperand .lsr rfl (fun _ => rfl) (fun _ _ p => .nzc rfl rfl rfl p _ _ _) o s
  | rol o => cases h; exact .modifyOperand .rol rfl (fun _ => rfl) (fun _ _ p => .nzc rfl rfl rfl p _ _ _) o s
  | ror o => cases h; exact .modifyOperand .ror rfl (fun _ => rfl) (fun _ _ p => .nzc rfl rfl rfl p _ _ _) o s
  | inc o => cases h; exact .modifyOperand .inc rfl (fun _ => rfl) (fun _ _ p => .nz rfl rfl p _ _) o s
  | dec o => cases h; exact .modifyOperand .dec rfl (fun _ => rfl) (fun _ _ p => .nz rfl rfl p _ _) o s
  | bcc off | bcs off | beq off | bne off | bmi off | bpl off | bvc off | bvs off | bra off =>
    cases h; exact (WritesOnly.refl s).fetchOpcode.branch _ off
  | jmp j => cases h; exact (WritesOnly.jump j s).setPc _
  | jsr w =>
    cases h
    exact (((WritesOnly.refl s).fetchOpcode.fetchOperand.read _ _).pushPc rfl rfl).fetchOperand.setPc w
  | rts => cases h; exact ((((WritesOnly.implied s).read _ _).pullPc rfl).read _ _).setPc _
  | rti =>
    cases h
    exact ((((WritesOnly.implied s).read _ _).pull rfl).setP (.pulled (.inr rfl) _ _)).pullPc rfl
  | brk sig => cases h; exact (WritesOnly.refl s).fetchOpcode.fetchOperand.takeException (by simp) true irqVector
  | clc | sec =>
    cases h
    exact (WritesOnly.implied s).setP ⟨absurd rfl, absurd rfl, fun _ => rfl, absurd rfl, absurd rfl, absurd rfl⟩
  | cli | sei =>
    cases h
    exact (WritesOnly.implied s).setP ⟨absurd rfl, absurd rfl, absurd rfl, absurd rfl, fun _ => rfl, absurd rfl⟩
  | cld | sed =>
    cases h
    exact (WritesOnly.implied s).setP ⟨absurd rfl, absurd rfl, absurd rfl, absurd rfl, absurd rfl, fun _ => .inl rfl⟩
  | clv =>
    cases h
    exact (WritesOnly.implied s).setP ⟨absurd rfl, absurd rfl, absurd rfl, fun _ => rfl, absurd rfl, absurd rfl⟩
  | nop => cases h; exact .implied s
  | wai => cases h; exact (WritesOnly.implied s).idle.setRun (.inl rfl) _
  | stp => cases h; exact (WritesOnly.implied s).idle.setRun (.inr rfl) _
  | nop1 op | nop2 op b1 | nop3 op w => exact .undefinedOpcode h
  | rmb0 z | rmb1 z | rmb2 z | rmb3 z | rmb4 z | rmb5 z | rmb6 z | rmb7 z
  | smb0 z | smb1 z | smb2 z | smb3 z | smb4 z | smb5 z | smb6 z | smb7 z =>
    cases h; exact .modifyMemory rfl (.zp z) s fun _ p => .refl p
  | bbr0 z off | bbr1 z off | bbr2 z off | bbr3 z off | bbr4 z off | bbr5 z off | bbr6 z off | bbr7 z off
  | bbs0 z off | bbs1 z off | bbs2 z off | bbs3 z off | bbs4 z off | bbs5 z off | bbs6 z off | bbs7 z off =>
    cases h; exact .branchOnBit _ _ z off s

/-- Settles O43: instruction by instruction every write is a listed one (`exec_writesOnly`). -/
theorem onlyTheListedInstructionsWrite : Obligations.OnlyTheListedInstructionsWrite := by
  intro ins s t h
  obtain ⟨a, x, y, sp, run, ⟨n, z, c, v, i, d⟩, memory⟩ := exec_writesOnly h
  exact ⟨a, x, y, sp, run, n, z, c, v, i, d, memory⟩

end Sys2Proof.Machine

namespace Sys2Proof.Machine

/-! ## Reset, the boundary, the status byte: O46, O36, O12 -/

variable {s t : State}

/-- Settles O46: the state after reset is a closed term, so its fields and the power-on procedure are evaluated. -/
theorem resetStateIsPowerOnAndHasTheInvariant : Obligations.ResetStateIsPowerOnAndHasTheInvariant := by
  have inv : Inv State.reset := ⟨rfl, rfl, rfl, rfl, by decide, by decide, by decide⟩
  have powered : powerOn .chosen State.reset = State.reset := by decide
  exact ⟨inv, powered, rfl, rfl, rfl, rfl, rfl, rfl, rfl, rfl, rfl, by decide⟩

/-! ### The boundary (R301, R310 to R312) -/

/-- A running core takes a latched NMI before anything else. -/
theorem boundary_nmi (hrun : s.run = .running) (hnmi : s.nmiPending = true) :
    boundary s = .done (interruptEntry nmiVector { s with nmiPending := false }) := by
  simp [boundary, hrun, hnmi]

/-- With no NMI latched it takes an asserted IRQ that `I` does not mask. -/
theorem boundary_irq (hrun : s.run = .running) (hnmi : s.nmiPending = false) (hirq : s.irqLine = true) (hi : s.p.i = false) :
    boundary s = .done (interruptEntry irqVector s) := by
  simp [boundary, hrun, hnmi, hirq, hi]

/-- Where it takes neither, and there only, it executes. -/
theorem executes_iff_boundary (s : State) : Executes s ↔ boundary s = .execute := by
  unfold Executes boundary
  cases s.run with
  | running => cases s.nmiPending <;> simp
  | waitingForInterrupt => simp
  | stopped => simp

/-- Every event a running core takes instead of an instruction is one of the two entries. -/
theorem boundary_done (hrun : s.run = .running) (h : boundary s = .done t) :
    (s.nmiPending = true ∧ t = interruptEntry nmiVector { s with nmiPending := false }) ∨ t = interruptEntry irqVector s := by
  simp only [boundary, hrun] at h
  split_ifs at h with hnmi hirq
  · cases h
    exact .inl ⟨hnmi, by rw [hrun]⟩
  · cases h
    exact .inr rfl

/-- Settles O36: what a boundary takes is read off its definition (R301); what an entry does is `interruptEntry_spec`. -/
theorem interruptsAreTakenAtTheBoundary : Obligations.InterruptsAreTakenAtTheBoundary := by
  intro s
  refine ⟨executes_iff_boundary s, fun hrun hnmi hwf => ?_, fun hrun hnmi hirq hi hwf => ?_, fun b => ⟨rfl, ?_⟩⟩
  · exact ⟨_, boundary_nmi hrun hnmi, interruptEntry_spec (s := { s with nmiPending := false }) hwf (.inl rfl)⟩
  · exact ⟨_, boundary_irq hrun hnmi hirq hi, interruptEntry_spec hwf (.inr rfl)⟩
  · cases b <;> cases hline : s.nmiLine <;> simp [setNmiLine, hline]

/-! ### The status byte (R24, R25) -/

/-- Of the byte that is stored, bits 5 and 4 are lost; read back, they are 1 and 0. -/
theorem getStatus_setStatus (v : Byte) : (Flags.setStatus v).getStatus = (v &&& 0xCF) ||| 0x20 := by
  revert v
  decide

/-- A byte view holds the six flags at the bits of R24, whatever bit 4 is; bit 5 is 1. -/
theorem statusByte_bits (b : Bool) (p : Flags) :
    (p.statusByte b).getLsbD 5 = true ∧ Flags.setStatus (p.statusByte b) = p := by
  obtain ⟨n, v, d, i, z, c⟩ := p
  revert b n v d i z c
  decide

/-- The byte `PHP` and `BRK` push is the status as read, with bit 4 set. -/
theorem statusBits_true (p : Flags) : statusBits true p = p.getStatus ||| 0x10 := by
  obtain ⟨n, v, d, i, z, c⟩ := p
  revert n v d i z c
  decide

/-- The byte an exception leaves on the stack is the status byte (R246, R320). -/
theorem TakesException.pushed_status {n : Nat} {b : Bool} {ret vec : Addr} (h : TakesException n b ret vec s t) :
    Memory.read t.ram (stackAddr (s.sp - 2)) = statusBits b s.p := by
  obtain ⟨-, frame⟩ := h
  rw [frame.memory, if_pos rfl]

/-- `PLP` sets the flags from the byte above the stack pointer (R150). -/
theorem exec_plp_flags (s : State) :
    ∃ t, exec .plp s = .next t ∧ t.p = Flags.setStatus (Memory.read s.ram (stackAddr (s.sp + 1))) := by
  refine ⟨_, rfl, ?_⟩
  simp [pullRegister, pull_fst, implied, dummyRead]

/-- So does `RTI` (R245). -/
theorem exec_rti_flags (s : State) :
    ∃ t, exec .rti s = .next t ∧ t.p = Flags.setStatus (Memory.read s.ram (stackAddr (s.sp + 1))) := by
  refine ⟨_, rfl, ?_⟩
  rw [← core_p, returnFromInterrupt_core]
  simp [implied, dummyRead]

/-- `PHP` stores the status byte with bit 4 set (R146, D32). -/
theorem exec_php_pushed (s : State) (hwf : Memory.wf s.ram = true) :
    ∃ t, exec .php s = .next t ∧ Memory.read t.ram (stackAddr s.sp) = statusBits true s.p := by
  refine ⟨_, rfl, ?_⟩
  have frame := (implied_quiet s).push hwf (s.p.statusByte true)
  exact (frame.memory (stackAddr s.sp)).trans (if_pos (by simp))

/-- `BRK` takes the exception with bit 4 set (R246). -/
theorem exec_brk_takes (s : State) (hwf : Memory.wf s.ram = true) (sig : Byte) :
    ∃ t, exec (.brk sig) s = .next t ∧ TakesException 7 true (s.pc + 1 + 1) irqVector s t := by
  refine ⟨_, rfl, ?_⟩
  have fetched : Quiet 2 s (fetchOperand (fetchOpcode s)) := (Quiet.refl s).fetchOpcode.fetchOperand
  exact takeException_spec fetched hwf true (.inr rfl) (by simp)

/-- Settles O12: the two round trips hold of every byte and every flags; the pushed bytes are in the frames of `PHP` and of taking
an exception. -/
theorem statusByteRoundTrip : Obligations.StatusByteRoundTrip := by
  refine ⟨fun v => ⟨getStatus_setStatus v, rfl⟩, fun p => ⟨rfl, statusByte_bits false p⟩,
    fun s => ⟨exec_plp_flags s, exec_rti_flags s⟩, fun s hwf => ⟨?_, fun sig => ?_, fun t hrun hb => ?_⟩⟩
  · rw [← statusBits_true]
    exact exec_php_pushed s hwf
  · obtain ⟨t, he, ht⟩ := exec_brk_takes s hwf sig
    exact ⟨t, he, ht.pushed_status.trans (statusBits_true s.p)⟩
  · obtain ⟨-, rfl⟩ | rfl := boundary_done hrun hb
    · exact (interruptEntry_spec (s := { s with nmiPending := false }) hwf (.inl rfl)).pushed_status
    · exact (interruptEntry_spec hwf (.inr rfl)).pushed_status

end Sys2Proof.Machine

namespace Sys2Proof.Machine

/-! ## The bytes an instruction fetches: O39

`Fetched` says which bytes a stretch of the core fetched. What an instruction does besides its fetches adds none, so each
meaning's fetches are read off it action by action, and they are the bytes that `instrBytes` looked ahead at. The decoder's table
gives the instruction of those bytes, and its encoding is as many of them as it is long. -/

/-! ### The table, read forwards and encoded (R83 to R86) -/

/-- What is said of every entry of an opcode's row is said of the decoded instruction. -/
theorem decodeOp_map {α : Type} (f : Instr → α) (bitops : Bool) (op lo hi : Byte) :
    f (decodeOp bitops op lo hi) =
      ((opcodeRow bitops op lo hi (pair hi lo) (op.toNat / 16)).map f).getD (op.toNat % 16) (f (.nop1 op)) :=
  (List.getD_map _ _ f).symm

/-- Every entry of a row carries the operand bytes it was given. -/
theorem opcodeRow_operands (bitops : Bool) (op : Byte) (w : Addr) (r : Nat) :
    (opcodeRow bitops op (loByte w) (hiByte w) w r).map (fun i => op :: i.operandBytes) =
      (opcodeRow bitops op (loByte w) (hiByte w) w r).map (fun i => [op, loByte w, hiByte w].take i.length) := by
  unfold opcodeRow
  cases bitops <;> split <;> rfl

/-- The decoded instruction carries the bytes after its opcode, as many as its length says. -/
theorem operandBytes_decodeOp (bitops : Bool) (op lo hi : Byte) :
    op :: (decodeOp bitops op lo hi).operandBytes = [op, lo, hi].take (decodeOp bitops op lo hi).length := by
  have rows := opcodeRow_operands bitops op (pair hi lo) (op.toNat / 16)
  rw [loByte_pair, hiByte_pair] at rows
  rw [decodeOp_map (fun i => op :: i.operandBytes), rows]
  exact (decodeOp_map (fun i => [op, lo, hi].take i.length) bitops op lo hi).symm

/-- The operand bytes have no part in the opcode. -/
theorem opcodeRow_opcodes (bitops : Bool) (op lo hi : Byte) (w : Addr) (r : Nat) :
    (opcodeRow bitops op lo hi w r).map Instr.opcode = (opcodeRow bitops op 0 0 (pair 0 0) r).map Instr.opcode := by
  unfold opcodeRow
  cases bitops <;> split <;> rfl

theorem opcode_decodeOp (bitops : Bool) (op lo hi : Byte) : (decodeOp bitops op lo hi).opcode = some op := by
  have closed : ∀ bitops op, (decodeOp bitops op 0 0).opcode = some op := by decide
  rw [← closed bitops op, decodeOp_map Instr.opcode, decodeOp_map Instr.opcode, opcodeRow_opcodes]

/-- The encoding of the decoded instruction is the bytes it was decoded from. -/
theorem encode_decodeOp (bitops : Bool) (op lo hi : Byte) :
    encode (decodeOp bitops op lo hi) = [op, lo, hi].take (decodeOp bitops op lo hi).length := by
  rw [← operandBytes_decodeOp, encode, opcode_decodeOp]

/-! ### What each action fetches -/

variable {n : Nat} {l : List Byte} {s t u : State}

/-- From `s` to `t` the core fetched the bytes `l`, first to last. -/
def Fetched (l : List Byte) (s t : State) : Prop := fetchedBytes t.bus = fetchedBytes s.bus ++ l

/-- The read is the fetch of an instruction's byte (R9, R100). -/
def ReadKind.isFetch : ReadKind → Bool
  | .execOpCode | .execOperand => true
  | .read | .dummyRead | .stackRead | .vectorRead => false

theorem fetchedBytes_cons (e : BusEvent) (bus : List BusEvent) :
    fetchedBytes (e :: bus) = fetchedBytes bus ++ fetchedBytes [e] := by
  cases e with
  | read k a v => cases k <;> simp [fetchedBytes]
  | write k a v => simp [fetchedBytes]
  | idle => simp [fetchedBytes]

theorem Fetched.refl (s : State) : Fetched [] s s := (List.append_nil _).symm

/-- An update of registers is no event. -/
theorem Fetched.of_bus (h : Fetched l s t) (e : u.bus = t.bus) : Fetched l s u := by rwa [Fetched, e]

/-- One event more. -/
theorem Fetched.event (h : Fetched l s t) {e : BusEvent} (he : u.bus = e :: t.bus) : Fetched (l ++ fetchedBytes [e]) s u := by
  rw [Fetched, he, fetchedBytes_cons, h, List.append_assoc]

namespace Fetched

theorem fetchOpcode (h : Fetched l s t) : Fetched (l ++ [peek t t.pc]) s (fetchOpcode t) := h.event (afterRead_bus _ _ t)

theorem fetchOperand (h : Fetched l s t) : Fetched (l ++ [peek t t.pc]) s (fetchOperand t) := h.event (afterRead_bus _ _ t)

theorem read (h : Fetched l s t) {k : ReadKind} (hk : k.isFetch = false) (a : Addr) : Fetched l s (afterRead k a t) := by
  have silent : fetchedBytes [.read k a (peek t a)] = [] := by
    cases k with
    | execOpCode | execOperand => cases hk
    | read | dummyRead | stackRead | vectorRead => rfl
  simpa [silent] using h.event (afterRead_bus k a t)

theorem idle (h : Fetched l s t) : Fetched l s (idle t) := by simpa [fetchedBytes] using h.event (u := Machine.idle t) rfl

theorem write (h : Fetched l s t) (k : WriteKind) (a : Addr) (v : Byte) : Fetched l s (memWrite k a v t) := by
  simpa [fetchedBytes] using h.event (memWrite_bus k a v t)

theorem idles (h : Fetched l s t) (k : Nat) : Fetched l s (Machine.idle^[k] t) := by
  induction k generalizing t with
  | zero => exact h
  | succ k ih =>
    rw [Function.iterate_succ_apply]
    exact ih h.idle

theorem setP (h : Fetched l s t) (p : Flags) : Fetched l s (t.setP p) := h

theorem setPc (h : Fetched l s t) (w : Addr) : Fetched l s (t.setPc w) := h

theorem setSp (h : Fetched l s t) (v : Byte) : Fetched l s (t.setSp v) := h

theorem push (h : Fetched l s t) (v : Byte) : Fetched l s (push v t) := (h.write _ _ v).setSp _

theorem pushPc (h : Fetched l s t) : Fetched l s (pushPc t) := (h.push _).push _

theorem pull (h : Fetched l s t) : Fetched l s (pull t).2 := (h.setSp _).read rfl _

theorem pullPc (h : Fetched l s t) : Fetched l s (pullPc t) := h.pull.pull.setPc _

theorem implied (h : Fetched l s t) : Fetched l s (implied t) := h.read rfl _

theorem readPointer (h : Fetched l s t) (z : Byte) : Fetched l s (readPointer z t).2 := (h.read rfl _).read rfl _

theorem readPointer16 (h : Fetched l s t) (w : Addr) : Fetched l s (readPointer16 w t).2 := (h.read rfl _).read rfl _

theorem pageDummy (h : Fetched l s t) (cls : AccessClass) (w : Addr) (i : Byte) : Fetched l s (pageDummy cls w i t) := by
  unfold Machine.pageDummy
  split
  · exact h.read rfl _
  · exact h

theorem takeBranch (h : Fetched l s t) (off : Byte) : Fetched l s (takeBranch off t) := by
  unfold Machine.takeBranch
  dsimp only
  split
  · exact (h.read (k := .dummyRead) rfl _).setPc _
  · exact ((h.read (k := .dummyRead) rfl _).read (k := .dummyRead) rfl _).setPc _

/-- A branch fetches its offset byte and nothing else (R230). -/
theorem branch (h : Fetched l s t) (taken : Bool) (off : Byte) : Fetched (l ++ [peek t t.pc]) s (branch taken off t) := by
  cases taken with
  | false => exact h.fetchOperand
  | true => exact h.fetchOperand.takeBranch off

theorem loadVector (h : Fetched l s t) (vec : Addr) : Fetched l s (loadVector vec t) :=
  ((h.read rfl _).read rfl _).setPc _

theorem takeException (h : Fetched l s t) (b : Bool) (vec : Addr) : Fetched l s (takeException b vec t) := by
  have pushed := h.pushPc.push ((Machine.pushPc t).p.statusByte b)
  unfold Machine.takeException
  dsimp only
  exact (pushed.setP _).loadVector vec

theorem decimalResult (h : Fetched l s t) (valid : Bool) (r : Byte × Bool) : Fetched l s (decimalResult valid r t) := by
  unfold Machine.decimalResult
  dsimp only
  split <;> exact h.of_bus rfl

theorem addOperand (h : Fetched l s t) (m : Byte) : Fetched l s (addOperand m t) := by
  unfold Machine.addOperand
  split
  · exact (h.decimalResult _ _).idle
  · exact h.of_bus rfl

theorem subOperand (h : Fetched l s t) (m : Byte) : Fetched l s (subOperand m t) := by
  unfold Machine.subOperand
  split
  · exact (h.decimalResult _ _).idle
  · exact h.of_bus rfl

end Fetched

/-! ### The look-ahead is what the fetches see -/

/-- The three bytes the step decodes from (log 15). -/
def lookahead (s : State) : List Byte := [(instrBytes s).1, (instrBytes s).2.1, (instrBytes s).2.2]

/-- A read that hits no data port changes no byte, a data port's included. -/
theorem peek_afterRead_plain {a : Addr} (k : ReadKind) (ha : isPort s.mapctl a = false) (b : Addr) :
    peek (afterRead k a s) b = peek s b := by
  have plain : afterRead k a s = s.cycle (.read k a (peek s a)) := by simp [afterRead, readEffect_eq, ha]
  rw [plain]
  rfl

namespace Fetched

theorem one (s : State) : Fetched ((lookahead s).take 1) s (Machine.fetchOpcode s) := (refl s).fetchOpcode

theorem two (s : State) : Fetched ((lookahead s).take 2) s (Machine.fetchOperand (Machine.fetchOpcode s)) := (one s).fetchOperand

/-- `JSR` writes between the fetches of its operand bytes, and the look-ahead with it (R243). -/
theorem jsr (hop : peek s s.pc = jsrOpcode) :
    Fetched (lookahead s) s (Machine.fetchOperand (callFrame (Machine.fetchOperand (Machine.fetchOpcode s)))) := by
  have frame : Fetched ((lookahead s).take 2) s (callFrame (Machine.fetchOperand (Machine.fetchOpcode s))) :=
    ((two s).read (k := .dummyRead) rfl _).pushPc
  simpa [lookahead, instrBytes, hop] using frame.fetchOperand

end Fetched

section
variable (hop : peek s s.pc ≠ jsrOpcode)
include hop

/-- Any other instruction finds its third byte where the second fetch left `PC`, if it changes no byte in between. -/
theorem lookahead_third (hpc : t.pc = s.pc + 1 + 1) (hb : ∀ a, peek t a = peek (fetchOperand (fetchOpcode s)) a) :
    (lookahead s).take 2 ++ [peek t t.pc] = lookahead s := by
  simp [lookahead, instrBytes, hop, hb, hpc]

namespace Fetched

theorem three : Fetched (lookahead s) s (Machine.fetchOperand (Machine.fetchOperand (Machine.fetchOpcode s))) := by
  have h := (two s).fetchOperand
  rwa [lookahead_third hop rfl fun _ => rfl] at h

/-- Resolving an address fetches the operand bytes of its mode (R104 to R112). -/
theorem resolve (cls : AccessClass) (m : MemMode) :
    Fetched ((lookahead s).take (1 + m.operandBytes)) s (resolve cls m (Machine.fetchOpcode s)).2 := by
  have h2 := two s
  have h3 := three hop
  cases m with
  | zp z => exact h2
  | zpx z | zpy z => exact h2.read rfl _
  | abs w => exact h3
  | abx w | aby w => exact h3.pageDummy cls w _
  | izx z => exact (h2.read (k := .dummyRead) rfl _).readPointer _
  | izy z => exact (h2.readPointer z).pageDummy cls _ _
  | izp z => exact h2.readPointer z

theorem readOperand (o : Operand) :
    Fetched ((lookahead s).take o.length) s (readOperand o (Machine.fetchOpcode s)).2 := by
  cases o with
  | imm v => exact two s
  | mem m => exact (resolve hop .read m).read rfl _

theorem storeOperand (m : MemMode) (v : Byte) :
    Fetched ((lookahead s).take (1 + m.operandBytes)) s (storeOperand m v (Machine.fetchOpcode s)) :=
  (resolve hop .write m).write _ _ _

theorem modifyMemory (m : MemMode) (f : Byte → Flags → Byte × Flags) :
    Fetched ((lookahead s).take (1 + m.operandBytes)) s (modifyMemory m f (Machine.fetchOpcode s)) :=
  ((((resolve hop .modify m).read (k := .read) rfl _).read (k := .dummyRead) rfl _).setP _).write _ _ _

theorem modifyOperand (o : RmwOperand) (f : Byte → Flags → Byte × Flags) :
    Fetched ((lookahead s).take o.length) s (modifyOperand o f (Machine.fetchOpcode s)) := by
  cases o with
  | acc => exact (one s).implied.of_bus rfl
  | mem m => exact modifyMemory hop m f

theorem jump (j : JumpTarget) : Fetched (lookahead s) s (resolveJump j (Machine.fetchOpcode s)).2 := by
  have h3 := three hop
  cases j with
  | abs w => exact h3
  | ind w => exact h3.readPointer16 w
  | iax w => exact h3.idle.readPointer16 _

/-- The two reads in page 0 between the fetches change no byte (R283). -/
theorem branchOnBit (k : Nat) (want : Bool) (z off : Byte) : Fetched (lookahead s) s (branchOnBit k want z off s) := by
  have same : ∀ a,
      peek (dummyRead (zeroPage z) (afterRead .read (zeroPage z) (Machine.fetchOperand (Machine.fetchOpcode s)))) a =
        peek (Machine.fetchOperand (Machine.fetchOpcode s)) a := by
    intro a
    rw [dummyRead, peek_afterRead_plain _ (by simp), peek_afterRead_plain _ (by simp)]
  have tested := ((two s).read (k := .read) rfl (zeroPage z)).read (k := .dummyRead) rfl (zeroPage z)
  rw [← lookahead_third hop (by simp [dummyRead]) same]
  exact tested.branch _ off

theorem undefinedOpcode {op : Byte} {k : Nat} (hk : k ≤ 2) (h : undefinedOpcode op k s = .next t) :
    Fetched ((lookahead s).take (1 + k)) s t := by
  unfold Machine.undefinedOpcode at h
  dsimp only at h
  split at h <;> cases h
  apply idles
  obtain rfl | rfl | rfl : k = 0 ∨ k = 1 ∨ k = 2 := by omega
  · exact one s
  · exact two s
  · exact three hop

end Fetched

/-- EVERY INSTRUCTION but `JSR` fetches the bytes looked ahead at, as many as it is long. -/
theorem exec_fetched {i : Instr} (hi : ∀ w, i ≠ .jsr w) (h : exec i s = .next t) :
    Fetched ((lookahead s).take i.length) s t := by
  have implied : Fetched ((lookahead s).take 1) s (implied (fetchOpcode s)) := (Fetched.one s).implied
  cases i with
  | lda o | ldx o | ldy o | and o | ora o | eor o | cmp o | cpx o | cpy o | bit o =>
    cases h; exact (Fetched.readOperand hop o).of_bus rfl
  | adc o => cases h; exact (Fetched.readOperand hop o).addOperand _
  | sbc o => cases h; exact (Fetched.readOperand hop o).subOperand _
  | sta m | stx m | sty m | stz m => cases h; exact .storeOperand hop m _
  | tsb m | trb m => cases h; exact .modifyMemory hop m _
  | asl o | lsr o | rol o | ror o | inc o | dec o => cases h; exact .modifyOperand hop o _
  | tax | tay | txa | tya | tsx | txs | inx | iny | dex | dey | clc | sec | cli | sei | cld | sed | clv | nop =>
    cases h; exact implied.of_bus rfl
  | wai | stp => cases h; exact implied.idle.of_bus rfl
  | pha | phx | phy | php => cases h; exact implied.push _
  | pla | plx | ply | plp => cases h; exact (implied.read (k := .dummyRead) rfl _).pull.of_bus rfl
  | bcc off | bcs off | beq off | bne off | bmi off | bpl off | bvc off | bvs off | bra off =>
    cases h; exact (Fetched.one s).branch _ off
  | jmp j => cases h; exact (Fetched.jump hop j).setPc _
  | jsr w => exact absurd rfl (hi w)
  | rts => cases h; exact ((implied.read (k := .dummyRead) rfl _).pullPc.read (k := .dummyRead) rfl _).setPc _
  | rti => cases h; exact ((implied.read (k := .dummyRead) rfl _).pull.setP _).pullPc
  | brk sig => cases h; exact (Fetched.two s).takeException true irqVector
  | nop1 op => exact .undefinedOpcode hop (Nat.zero_le 2) h
  | nop2 op b1 => exact .undefinedOpcode hop one_le_two h
  | nop3 op w => exact .undefinedOpcode hop le_rfl h
  | rmb0 z | rmb1 z | rmb2 z | rmb3 z | rmb4 z | rmb5 z | rmb6 z | rmb7 z
  | smb0 z | smb1 z | smb2 z | smb3 z | smb4 z | smb5 z | smb6 z | smb7 z =>
    cases h; exact .modifyMemory hop (.zp z) _
  | bbr0 z off | bbr1 z off | bbr2 z off | bbr3 z off | bbr4 z off | bbr5 z off | bbr6 z off | bbr7 z off
  | bbs0 z off | bbs1 z off | bbs2 z off | bbs3 z off | bbs4 z off | bbs5 z off | bbs6 z off | bbs7 z off =>
    cases h; exact .branchOnBit hop _ _ z off

end

/-- `JSR`'s opcode decodes to a `JSR`, and no other does. -/
theorem instrAt_jsr (hop : peek s s.pc = jsrOpcode) : ∃ w, instrAt s = .jsr w := by
  simp only [instrAt, instrBytes, hop]
  cases s.params.bitops <;> exact ⟨_, rfl⟩

theorem peek_of_instrAt_jsr {w : Addr} (h : instrAt s = .jsr w) : peek s s.pc = jsrOpcode := by
  have op := opcode_decodeOp s.params.bitops (instrBytes s).1 (instrBytes s).2.1 (instrBytes s).2.2
  rw [show decodeOp s.params.bitops (instrBytes s).1 (instrBytes s).2.1 (instrBytes s).2.2 = .jsr w from h] at op
  exact (Option.some.inj op).symm

/-- The instruction at `PC` fetches its own encoding, `JSR` included. -/
theorem instrAt_fetched (h : exec (instrAt s) s = .next t) : Fetched (encode (instrAt s)) s t := by
  have enc : encode (instrAt s) = (lookahead s).take (instrAt s).length := encode_decodeOp _ _ _ _
  rw [enc]
  by_cases hop : peek s s.pc = jsrOpcode
  · obtain ⟨w, hw⟩ := instrAt_jsr hop
    rw [hw] at h ⊢
    cases h
    exact (Fetched.jsr hop).setPc w
  · exact exec_fetched hop (fun w hw => hop (peek_of_instrAt_jsr hw)) h

/-- Settles O39: a step that executes runs the decoded instruction from an empty event record, and the tick adds no event. -/
theorem fetchesSeeTheDecodedBytes : Obligations.FetchesSeeTheDecodedBytes := by
  intro s t hs h
  have execute : boundary (beginStep s) = .execute := (executes_iff_boundary _).1 hs
  unfold step at h
  rw [execute] at h
  dsimp only at h
  split at h <;> cases h
  next u hu =>
    rw [(platformTick_ticked u).bus]
    exact instrAt_fetched hu

end Sys2Proof.Machine

namespace Sys2Proof.Machine

/-! ## What answers at each address: O49 and O50 -/

/-! ### The windows (R51, R52, R56) -/

/-- An address of a page, as the page's base and an offset. -/
theorem base_add_offset (page off : Byte) : pair page 0 + off.setWidth 16 = pair page off := by
  have hp := page.isLt
  have ho := off.isLt
  apply BitVec.eq_of_toNat_eq
  simp [BitVec.toNat_add, pair_toNat]
  omega

/-- An address of a page is the page and its distance from the base. -/
theorem eq_pair_of_page {a : Addr} {page : Byte} (lo : page.toNat * 256 ≤ a.toNat) (hi : a.toNat < page.toNat * 256 + 256) :
    a = pair page (BitVec.ofNat 8 (a.toNat - page.toNat * 256)) := by
  apply BitVec.eq_of_toNat_eq
  rw [pair_toNat, BitVec.toNat_ofNat]
  omega

/-- Below the ROM window only the two device pages are not RAM. -/
theorem region_below {m : Byte} {a : Addr} (h : a.toNat < 0xFE00) :
    region m a =
      if hiByte a = 0xFC ∧ m.getLsbD 0 = false then .suzy (loByte a)
      else if hiByte a = 0xFD ∧ m.getLsbD 1 = false then .mikey (loByte a)
      else .ram := by
  have notMapctl : a ≠ 0xFFF9 := by
    rintro rfl
    exact absurd h (by decide)
  unfold region
  simp only [if_neg notMapctl, show ¬ 0xFE00 ≤ a.toNat by omega, show ¬ 0xFFFA ≤ a.toNat by omega, false_and, if_false]

/-- The Suzy window: Suzy, or the RAM under it (R53). -/
theorem region_suzyPage (m off : Byte) : region m (pair 0xFC off) = if m.getLsbD 0 then .ram else .suzy off := by
  have ho := off.isLt
  rw [region_below (by rw [pair_toNat]; simp; omega)]
  cases hm : m.getLsbD 0 <;> simp

/-- The Mikey window: Mikey, or the RAM under it (R53). -/
theorem region_mikeyPage (m off : Byte) : region m (pair 0xFD off) = if m.getLsbD 1 then .ram else .mikey off := by
  have ho := off.isLt
  rw [region_below (by rw [pair_toNat]; simp; omega)]
  cases hm : m.getLsbD 1 <;> simp

theorem region_suzy_visible {m : Byte} (hm : m.getLsbD 0 = false) (off : Byte) : region m (pair 0xFC off) = .suzy off := by
  rw [region_suzyPage, if_neg (Bool.eq_false_iff.1 hm)]

theorem region_mikey_visible {m : Byte} (hm : m.getLsbD 1 = false) (off : Byte) : region m (pair 0xFD off) = .mikey off := by
  rw [region_mikeyPage, if_neg (Bool.eq_false_iff.1 hm)]

/-- Above the device pages: the ROM window, the vectors, and RAM where they are hidden (R53). -/
theorem region_above {m : Byte} {a : Addr} (h : 0xFE00 ≤ a.toNat) (h9 : a ≠ 0xFFF9) :
    region m a =
      if a.toNat ≤ 0xFFF7 ∧ m.getLsbD 2 = false then .rom (a.toNat - 0xFE00)
      else if 0xFFFA ≤ a.toNat ∧ m.getLsbD 3 = false then .rom (a.toNat - 0xFE00)
      else .ram := by
  have page : 0xFE ≤ (hiByte a).toNat := by
    rw [hiByte_toNat]
    omega
  have notSuzy : hiByte a ≠ 0xFC := fun e => absurd page (by rw [e]; decide)
  have notMikey : hiByte a ≠ 0xFD := fun e => absurd page (by rw [e]; decide)
  unfold region
  rw [if_neg h9, if_neg (fun e => notSuzy e.1), if_neg (fun e => notMikey e.1)]
  simp only [h, true_and]

/-- Settles O49: window by window. -/
theorem addressMap : Obligations.AddressMap := by
  intro m a
  have mapctl : (0xFFF9 : Addr).toNat = 0xFFF9 := rfl
  dsimp only
  refine ⟨fun h => ?_, fun h => ?_, fun lo hi => ?_, fun lo hi => ?_, fun lo hi => ?_, fun h => ?_⟩
  · obtain low | last := h
    · exact region_low low
    · rw [region_above (by omega) (by rintro rfl; omega), if_neg (by omega), if_neg (by omega)]
  · rw [region, if_pos (BitVec.eq_of_toNat_eq h)]
  · have e : a = pair 0xFC (BitVec.ofNat 8 (a.toNat - 0xFC00)) := eq_pair_of_page (page := 0xFC) lo hi
    exact (congrArg (region m) e).trans (region_suzyPage m _)
  · have e : a = pair 0xFD (BitVec.ofNat 8 (a.toNat - 0xFD00)) := eq_pair_of_page (page := 0xFD) lo hi
    exact (congrArg (region m) e).trans (region_mikeyPage m _)
  · rw [region_above lo (by rintro rfl; omega), if_neg (c := 0xFFFA ≤ _ ∧ _) (by omega)]
    cases m.getLsbD 2 <;> simp [hi]
  · rw [region_above (by omega) (by rintro rfl; omega), if_neg (by omega)]
    cases m.getLsbD 3 <;> simp [h]

/-! ### Reads -/

/-- A visible Suzy address answers as its register (R56). -/
theorem peek_suzy_visible {s : State} (hs : s.mapctl.getLsbD 0 = false) (off : Byte) :
    peek s (pair 0xFC off) = suzyRead s off := by
  rw [peek, region_suzy_visible hs]

/-- The address of `RCART0` or `RCART1` (R360). -/
theorem port_address (b : Fin 2) : 0xFCB2 + BitVec.ofNat 16 b.val = pair 0xFC (0xB2 + BitVec.ofNat 8 b.val) := by
  revert b
  decide

theorem suzyReg_port (b : Fin 2) : suzyReg (0xB2 + BitVec.ofNat 8 b.val) = some (.rcart b) := by
  revert b
  decide

/-- The data ports are two addresses of the Suzy window, while it is visible (R360, R380). -/
theorem isPort_iff (m : Byte) (a : Addr) :
    isPort m a = true ↔ m.getLsbD 0 = false ∧ ∃ b : Fin 2, a = 0xFCB2 + BitVec.ofNat 16 b.val := by
  constructor
  · intro h
    cases hr : region m a with
    | suzy off =>
      have port : off = 0xB2 ∨ off = 0xB3 := by simpa [isPort, hr] using h
      unfold region at hr
      split_ifs at hr with _ suzy
      cases hr
      obtain ⟨page, visible⟩ := suzy
      refine ⟨visible, ?_⟩
      rw [← pair_hi_lo a, page]
      obtain e | e := port
      · exact ⟨0, by rw [e]; rfl⟩
      · exact ⟨1, by rw [e]; rfl⟩
    | mapctl | mikey off | rom off | ram =>
      rw [isPort, hr] at h
      cases h
  · rintro ⟨visible, b, rfl⟩
    rw [isPort, port_address, region_suzy_visible visible]
    revert b
    decide

/-- A data port shows the image's byte at the counter (R380). -/
theorem peek_port {s : State} (hs : s.mapctl.getLsbD 0 = false) (b : Fin 2) :
    peek s (0xFCB2 + BitVec.ofNat 16 b.val) = cartValue s b := by
  rw [port_address, peek_suzy_visible hs, suzyRead, suzyReg_port]
  rfl

/-- Settles O50: a read's effect is told by `isPort` (`readEffect_eq`). -/
theorem onlyCartridgePortReadsHaveAnEffect : Obligations.OnlyCartridgePortReadsHaveAnEffect := by
  refine fun k s => ⟨fun b hs => ?_, fun a h => ?_⟩
  · have port : isPort s.mapctl (0xFCB2 + BitVec.ofNat 16 b.val) = true := (isPort_iff _ _).2 ⟨hs, b, rfl⟩
    dsimp only
    rw [memRead, afterRead, readEffect_eq, State.cycle_mapctl, if_pos port, peek_port hs]
    rfl
  · have plain : isPort s.mapctl a = false := by
      rw [Bool.eq_false_iff, Ne, isPort_iff]
      rintro ⟨hs, b, rfl⟩
      obtain hidden | ⟨h0, h1⟩ := h
      · exact absurd (hs.symm.trans hidden) Bool.false_ne_true
      · match b with
        | 0 => exact h0 rfl
        | 1 => exact h1 rfl
    rw [memRead, afterRead, readEffect_eq, State.cycle_mapctl, plain]
    rfl

end Sys2Proof.Machine

namespace Sys2Proof.Machine

/-! ## What a write to a device register stores: O48

A write to a visible window is one cycle and the action of the register at the offset (`memWrite_mikey`, `memWrite_suzy`), so each
clause names the register and compares its action with the one the statement writes out. Hidden, the window is RAM. -/

variable {k : WriteKind} {v : Byte} {s t : State} {off : Byte}

/-! ### Halves of a word -/

theorem append_toNat {m n : Nat} (x : BitVec m) (y : BitVec n) : (x ++ y).toNat = x.toNat * 2 ^ n + y.toNat := by
  rw [BitVec.toNat_append, Nat.shiftLeft_eq, Nat.mul_comm, ← Nat.two_pow_add_eq_or_of_lt y.isLt]

theorem withLo_eq (x : Addr) (v : Byte) : withLo x v = BitVec.ofNat 16 (x.toNat / 256 * 256 + v.toNat) := by
  have := x.isLt
  have := v.isLt
  apply BitVec.eq_of_toNat_eq
  rw [withLo, pair_toNat, hiByte_toNat, BitVec.toNat_ofNat]
  omega

theorem withHi_eq (x : Addr) (v : Byte) : withHi x v = BitVec.ofNat 16 (v.toNat * 256 + x.toNat % 256) := by
  have := x.isLt
  have := v.isLt
  apply BitVec.eq_of_toNat_eq
  rw [withHi, pair_toNat, loByte, BitVec.toNat_setWidth, BitVec.toNat_ofNat]
  omega

@[simp] theorem loByte_withLo (x : Addr) (v : Byte) : loByte (withLo x v) = v := loByte_pair _ _

@[simp] theorem hiByte_withHi (x : Addr) (v : Byte) : hiByte (withHi x v) = v := hiByte_pair _ _

/-- The low register of a channel's LFSR (R370). -/
theorem lfsrLow_eq (x : BitVec 12) (v : Byte) :
    x.extractLsb' 8 4 ++ v = BitVec.ofNat 12 (x.toNat / 256 * 256 + v.toNat) := by
  have := x.isLt
  have := v.isLt
  apply BitVec.eq_of_toNat_eq
  rw [append_toNat, BitVec.extractLsb'_toNat, BitVec.toNat_ofNat, Nat.shiftRight_eq_div_pow]
  omega

/-- The high register of a channel's LFSR (R370). -/
theorem lfsrHigh_eq (x : BitVec 12) (v : Byte) :
    v.extractLsb' 4 4 ++ x.extractLsb' 0 8 = BitVec.ofNat 12 (v.toNat / 16 * 256 + x.toNat % 256) := by
  have := x.isLt
  have := v.isLt
  apply BitVec.eq_of_toNat_eq
  rw [append_toNat, BitVec.extractLsb'_toNat, BitVec.extractLsb'_toNat, BitVec.toNat_ofNat, Nat.shiftRight_eq_div_pow,
    Nat.shiftRight_eq_div_pow]
  omega

/-! ### The Mikey window -/

theorem mikey_offset (off : Byte) : 0xFD00 + off.setWidth 16 = pair 0xFD off := base_add_offset 0xFD off

/-- A register's address, as the statement counts it from the window's base. -/
theorem mikey_address {n : Nat} (h : n < 256) : BitVec.ofNat 16 (0xFD00 + n) = pair 0xFD (BitVec.ofNat 8 n) := by
  apply BitVec.eq_of_toNat_eq
  have page : (0xFD : Byte).toNat = 0xFD := rfl
  rw [pair_toNat, BitVec.toNat_ofNat, BitVec.toNat_ofNat]
  omega

/-- A visible Mikey address answers as its register (R56). -/
theorem peek_mikey_visible (hs : s.mapctl.getLsbD 1 = false) (off : Byte) : peek s (pair 0xFD off) = mikeyRead s off := by
  rw [peek, region_mikey_visible hs]

@[simp] theorem mikeyWrite_ram (off v : Byte) (s : State) : (mikeyWrite off v s).ram = s.ram := by
  unfold mikeyWrite
  cases mikeyReg off with
  | none => rfl
  | some r => cases r <;> rfl

@[simp] theorem mikeyWrite_mapctl (off v : Byte) (s : State) : (mikeyWrite off v s).mapctl = s.mapctl := by
  unfold mikeyWrite
  cases mikeyReg off with
  | none => rfl
  | some r => cases r <;> rfl

/-- Hidden, the window is RAM (R53, R57). -/
theorem memWrite_mikey_hidden (hs : s.mapctl.getLsbD 1 = true) (off : Byte) :
    memWrite k (pair 0xFD off) v s = (s.cycle (.write k (pair 0xFD off) v)).writeRam (pair 0xFD off) v :=
  memWrite_ram (by rw [region_mikeyPage, if_pos hs])

/-- A write to a register whose action is to become `t`, and what it then reads as. -/
theorem stores_mikey {r : MikeyReg} {back : Byte} {a : Addr} (hs : s.mapctl.getLsbD 1 = false) (ha : a = pair 0xFD off)
    (hr : mikeyReg off = some r) (ht : mikeyRegWrite (s.cycle (.write k a v)) v r = t) (hm : t.mapctl = s.mapctl)
    (hb : mikeyRegValue t r = back) : memWrite k a v s = t ∧ peek t a = back := by
  subst ha
  constructor
  · rw [memWrite_mikey (region_mikey_visible hs off), mikeyWrite, hr]
    exact ht
  · rw [peek_mikey_visible (hm ▸ hs), mikeyRead, hr]
    exact hb

/-- Where R340's table has no register (R55). -/
theorem mikeyReg_none {off : Byte}
    (h : ¬ (off.toNat < 0x45 ∨ off.toNat ∈ [0x50, 0x80, 0x81, 0x92, 0x94, 0x95] ∨
      (0xA0 ≤ off.toNat ∧ off.toNat < 0xC0))) :
    mikeyReg off = none := by
  revert off
  decide

/-- There a read gives 0xFF and a write is one cycle and nothing else (R55). -/
theorem stores_mikey_none (hs : s.mapctl.getLsbD 1 = false) (hr : mikeyReg off = none) :
    peek s (pair 0xFD off) = 0xFF ∧ memWrite k (pair 0xFD off) v s = s.cycle (.write k (pair 0xFD off) v) ∧
      peek (s.cycle (.write k (pair 0xFD off) v)) (pair 0xFD off) = 0xFF := by
  refine ⟨?_, ?_, ?_⟩
  · rw [peek_mikey_visible hs, mikeyRead, hr]
  · rw [memWrite_mikey (region_mikey_visible hs off), mikeyWrite, hr]
  · rw [peek_mikey_visible (s := s.cycle _) hs, mikeyRead, hr]

/-- The plain registers of a timer (R342). -/
theorem mikeyReg_timer (n : Fin 8) :
    mikeyReg (BitVec.ofNat 8 (4 * n.val + 0)) = some (.timerBkup n) ∧
      mikeyReg (BitVec.ofNat 8 (4 * n.val + 2)) = some (.timerCnt n) ∧
      mikeyReg (BitVec.ofNat 8 (4 * n.val + 3)) = some (.timerCtlb n) := by
  revert n
  decide

theorem mikeyReg_channel (c : Fin 4) (j : Fin 8) : mikeyReg (BitVec.ofNat 8 (0x20 + 8 * c.val + j.val)) = some (.chan c j) := by
  revert c j
  decide

theorem mikeyReg_atten (c : Fin 4) : mikeyReg (BitVec.ofNat 8 (0x40 + c.val)) = some (.atten c) := by
  revert c
  decide

/-- A channel's register reads as written; the last has no storage for its low bits (R370). -/
theorem Channel.readReg_writeReg (ch : Channel) (j : Fin 8) (v : Byte) :
    (ch.writeReg j v).readReg j = if j = 7 then v &&& 0xF8 else v := by
  match j with
  | 0 | 1 | 2 | 4 | 5 | 6 => rfl
  | 3 => exact BitVec.extractLsb'_append_eq_right
  | 7 =>
    have bits : ∀ v : Byte, v.extractLsb' 4 4 ++ BitVec.ofBool (v.getLsbD 3) ++ (0 : BitVec 3) = v &&& 0xF8 := by decide
    simp only [Channel.writeReg, Channel.readReg, BitVec.extractLsb'_append_eq_left]
    exact bits v

/-- Every register of a channel stores what R370 says and reads back. -/
theorem stores_channel (hs : s.mapctl.getLsbD 1 = false) (c : Fin 4) (j : Fin 8) {ch : Channel} {back : Byte}
    (hw : s.audio.channels[c].writeReg j v = ch) (hb : (if j = 7 then v &&& 0xF8 else v) = back) :
    let a : Addr := BitVec.ofNat 16 (0xFD20 + 8 * c.val + j.val)
    memWrite k a v s = (s.cycle (.write k a v)).setChannel c ch ∧ peek ((s.cycle (.write k a v)).setChannel c ch) a = back := by
  subst hw hb
  have ha := mikey_address (n := 0x20 + 8 * c.val + j.val) (by omega)
  have e : 0xFD00 + (0x20 + 8 * c.val + j.val) = 0xFD20 + 8 * c.val + j.val := by omega
  rw [e] at ha
  exact stores_mikey hs ha (mikeyReg_channel c j) rfl rfl (by simp [mikeyRegValue, State.setChannel, Channel.readReg_writeReg])

/-! ### The Suzy window -/

theorem suzy_offset (off : Byte) : 0xFC00 + off.setWidth 16 = pair 0xFC off := base_add_offset 0xFC off

/-- The registers that a write stores and a read gives back, with no action of their own: the words' bytes and the math bytes but
`MATHA` and `MATHE` (R360). -/
def plainSuzyRegs : List (Byte × SuzyReg) :=
  [(0x10, .wordLo .scbadr), (0x11, .wordHi .scbadr), (0x14, .wordLo .hpos), (0x15, .wordHi .hpos), (0x16, .wordLo .vpos),
   (0x17, .wordHi .vpos), (0x18, .wordLo .hsize), (0x19, .wordHi .hsize), (0x1A, .wordLo .vsize), (0x1B, .wordHi .vsize),
   (0x1C, .wordLo .stretch), (0x1D, .wordHi .stretch), (0x1E, .wordLo .tilt), (0x1F, .wordHi .tilt), (0x52, .math .d),
   (0x53, .math .c), (0x54, .math .b), (0x56, .math .p), (0x57, .math .n), (0x60, .math .h), (0x61, .math .g), (0x62, .math .f),
   (0x6C, .math .m), (0x6D, .math .l), (0x6E, .math .k), (0x6F, .math .j)]

/-- Suzy with a byte stored in one of them. -/
def Suzy.storeReg (z : Suzy) (v : Byte) : SuzyReg → Suzy
  | .wordLo w => z.setWord (BitVec.ofNat 16 ((z.word w).toNat / 256 * 256 + v.toNat)) w
  | .wordHi w => z.setWord (BitVec.ofNat 16 (v.toNat * 256 + (z.word w).toNat % 256)) w
  | .math r => z.setMathByte v r
  | .sprgo | .sprsys | .joystick | .switches | .rcart _ => z

@[simp] theorem Suzy.word_setWord (z : Suzy) (x : Addr) (w : SuzyWord) : (z.setWord x w).word w = x := by cases w <;> rfl

@[simp] theorem Suzy.mathByte_setMathByte (z : Suzy) (v : Byte) (r : MathByte) : (z.setMathByte v r).mathByte r = v := by
  cases r <;> rfl

theorem suzyReg_plain : ∀ p ∈ plainSuzyRegs, suzyReg p.1 = some p.2 := by decide

theorem suzyRegWrite_plain (s : State) (v : Byte) :
    ∀ p ∈ plainSuzyRegs, suzyRegWrite s v p.2 = s.setSuzy (s.suzy.storeReg v p.2) := by
  simp [plainSuzyRegs, suzyRegWrite, writeMath, Suzy.storeReg, withLo_eq, withHi_eq]

theorem suzyRegValue_plain (s : State) (v : Byte) :
    ∀ p ∈ plainSuzyRegs, suzyRegValue (s.setSuzy (s.suzy.storeReg v p.2)) p.2 = v := by
  simp [plainSuzyRegs, suzyRegValue, Suzy.storeReg, ← withLo_eq, ← withHi_eq]

/-- A write to a register whose action is to become `t`, and what it then reads as. -/
theorem stores_suzy {r : SuzyReg} {back : Byte} (hs : s.mapctl.getLsbD 0 = false) (hr : suzyReg off = some r)
    (ht : suzyRegWrite (s.cycle (.write k (pair 0xFC off) v)) v r = t) (hm : t.mapctl = s.mapctl) (hb : suzyRegValue t r = back) :
    memWrite k (pair 0xFC off) v s = t ∧ peek t (pair 0xFC off) = back := by
  constructor
  · rw [memWrite_suzy (region_suzy_visible hs off), suzyWrite, hr]
    exact ht
  · rw [peek_suzy_visible (hm ▸ hs), suzyRead, hr]
    exact hb

/-- Each of them stores the byte in its place and reads it back. -/
theorem stores_suzy_plain (hs : s.mapctl.getLsbD 0 = false) : ∀ p ∈ plainSuzyRegs,
    memWrite k (pair 0xFC p.1) v s = (s.cycle (.write k (pair 0xFC p.1) v)).setSuzy (s.suzy.storeReg v p.2) ∧
      peek ((s.cycle (.write k (pair 0xFC p.1) v)).setSuzy (s.suzy.storeReg v p.2)) (pair 0xFC p.1) = v :=
  fun p hp => stores_suzy hs (suzyReg_plain p hp) (suzyRegWrite_plain _ v p hp) rfl (suzyRegValue_plain (s.cycle _) v p hp)

/-- Where R360's table has no register (R55). -/
theorem suzyReg_none {off : Byte}
    (h : off.toNat ∉ [0x10, 0x11, 0x14, 0x15, 0x16, 0x17, 0x18, 0x19, 0x1A, 0x1B, 0x1C, 0x1D, 0x1E, 0x1F, 0x52, 0x53,
      0x54, 0x55, 0x56, 0x57, 0x60, 0x61, 0x62, 0x63, 0x6C, 0x6D, 0x6E, 0x6F, 0x91, 0x92, 0xB0, 0xB1, 0xB2, 0xB3]) :
    suzyReg off = none := by
  revert off
  decide

/-- There a read gives 0xFF and a write is one cycle and nothing else (R55). -/
theorem stores_suzy_none (hs : s.mapctl.getLsbD 0 = false) (hr : suzyReg off = none) :
    peek s (pair 0xFC off) = 0xFF ∧ memWrite k (pair 0xFC off) v s = s.cycle (.write k (pair 0xFC off) v) ∧
      peek (s.cycle (.write k (pair 0xFC off) v)) (pair 0xFC off) = 0xFF := by
  refine ⟨?_, ?_, ?_⟩
  · rw [peek_suzy_visible hs, suzyRead, hr]
  · rw [memWrite_suzy (region_suzy_visible hs off), suzyWrite, hr]
  · rw [peek_suzy_visible (s := s.cycle _) hs, suzyRead, hr]

/-- `SPRSYS` as the statement writes it (R360). -/
theorem Suzy.sprsys_eq (z : Suzy) :
    z.sprsys = (if z.mathOverflow then 0x40 else 0x00) ||| (if z.busy then 0x01 else 0x00) := by
  unfold Suzy.sprsys
  cases z.mathOverflow <;> cases z.busy <;> rfl

/-! ### The three clauses -/

theorem memWrite_mapctl_address (k : WriteKind) (v : Byte) (s : State) :
    memWrite k 0xFFF9 v s = { s.cycle (.write k 0xFFF9 v) with mapctl := v } :=
  memWrite_mapctl (by rw [region, if_pos rfl])

/-- The registers and the RAM of the Mikey window do not see each other (R53, R54, R57). -/
theorem mikey_overlay (off v hide shown : Byte) (hwf : Memory.wf s.ram = true) (hhide : hide.getLsbD 1 = true)
    (hshown : shown.getLsbD 1 = false) :
    let a := pair 0xFD off
    let w := fun (b : Addr) (x : Byte) (u : State) => memWrite .write b x u
    let s1 := w a v (w 0xFFF9 shown s)
    let s2 := w a v (w 0xFFF9 hide s1)
    let s3 := w 0xFFF9 shown s2
    (∀ b, Memory.read s1.ram b = Memory.read s.ram b) ∧ peek s2 a = v ∧ peek s3 a = peek s1 a ∧ s3.timers = s1.timers ∧
    ∀ b, b ≠ a → Memory.read s3.ram b = Memory.read s.ram b := by
  intro a w s1 s2 s3
  have e1 : s1 =
      mikeyWrite off v (State.cycle { s.cycle (.write .write 0xFFF9 shown) with mapctl := shown } (.write .write a v)) := by
    simp only [s1, w, a, memWrite_mapctl_address]
    exact memWrite_mikey (region_mikey_visible hshown off)
  have e2 : s2 = (State.cycle { s1.cycle (.write .write 0xFFF9 hide) with mapctl := hide } (.write .write a v)).writeRam a v := by
    simp only [s2, w, a, memWrite_mapctl_address]
    exact memWrite_mikey_hidden hhide off
  have e3 : s3 = { s2.cycle (.write .write 0xFFF9 shown) with mapctl := shown } := memWrite_mapctl_address _ _ _
  clear_value s3 s2 s1
  have ram1 : s1.ram = s.ram := by rw [e1, mikeyWrite_ram]; rfl
  have ram2 : s2.ram = Memory.write s.ram a v := by rw [e2, ← ram1]; rfl
  have ram3 : s3.ram = s2.ram := by rw [e3]; rfl
  have vis1 : s1.mapctl.getLsbD 1 = false := by rw [e1, mikeyWrite_mapctl]; exact hshown
  have vis3 : s3.mapctl.getLsbD 1 = false := by rw [e3]; exact hshown
  have hid2 : region s2.mapctl a = .ram := by
    rw [e2, region_mikeyPage]
    exact if_pos hhide
  refine ⟨fun b => by rw [ram1], ?_, ?_, ?_, fun b hb => ?_⟩
  · rw [peek_ram hid2, ram2, Memory.read_write_self hwf]
  · rw [peek_mikey_visible vis3, peek_mikey_visible vis1, e3, e2]
    rfl
  · rw [e3, e2]
    rfl
  · rw [ram3, ram2, Memory.read_write_other _ _ hb]

/-- A visible ROM window discards writes (R54, R57). -/
theorem rom_discards {b : Addr} {off : Nat} (hb : region s.mapctl b = .rom off) (hw : s.params.romWriteThrough = false) :
    peek (memWrite k b v s) b = peek s b ∧ (memWrite k b v s).ram = s.ram := by
  rw [memWrite_rom hb, if_neg (Bool.eq_false_iff.1 hw)]
  exact ⟨rfl, rfl⟩

/-- Settles O48: the overlays (`mikey_overlay`, `rom_discards`), then register by register of the two windows. -/
theorem overlaysHideAndKeepWhatIsUnderThem : Obligations.OverlaysHideAndKeepWhatIsUnderThem := by
  refine ⟨fun s off v hide shown hwf hhide hshown => ?_, fun k v s hs => ?_, fun k v s hs => ?_⟩
  · rw [mikey_offset off]
    obtain ⟨ram, hidden, again, timers, others⟩ := mikey_overlay off v hide shown hwf hhide hshown
    exact ⟨ram, hidden, again, timers, others, fun b off' hb hw => rom_discards hb hw⟩
  · refine ⟨fun n r hr => ?_, fun c r hr => ?_, fun c => ?_, ?_, ?_, ?_, ?_, ?_, fun off h => ?_⟩
    · obtain ⟨bkup, cnt, ctlb⟩ := mikeyReg_timer n
      have ha : ∀ j < 4, BitVec.ofNat 16 (0xFD00 + 4 * n.val + j) = pair 0xFD (BitVec.ofNat 8 (4 * n.val + j)) := by
        intro j hj
        rw [Nat.add_assoc]
        exact mikey_address (by omega)
      simp only [List.mem_cons, List.not_mem_nil, or_false] at hr
      obtain rfl | rfl | rfl := hr
      · exact stores_mikey hs (ha 0 (by omega)) bkup rfl rfl (by simp [mikeyRegValue, State.setTimer])
      · exact stores_mikey hs (ha 2 (by omega)) cnt rfl rfl (by simp [mikeyRegValue, State.setTimer])
      · exact stores_mikey hs (ha 3 (by omega)) ctlb rfl rfl (by simp [mikeyRegValue, State.setTimer])
    · simp only [List.mem_cons, List.not_mem_nil, or_false] at hr
      obtain rfl | rfl | rfl | rfl | rfl | rfl | rfl | rfl := hr
      · exact stores_channel hs c 0 rfl rfl
      · exact stores_channel hs c 1 rfl rfl
      · exact stores_channel hs c 2 rfl rfl
      · exact stores_channel hs c 3 (by rw [Channel.writeReg, lfsrLow_eq]) rfl
      · exact stores_channel hs c 4 rfl rfl
      · exact stores_channel hs c 5 rfl rfl
      · exact stores_channel hs c 6 rfl rfl
      · exact stores_channel hs c 7 (by rw [Channel.writeReg, lfsrHigh_eq]) rfl
    · have ha : BitVec.ofNat 16 (0xFD40 + c.val) = pair 0xFD (BitVec.ofNat 8 (0x40 + c.val)) := by
        rw [← mikey_address (by omega), ← Nat.add_assoc]
      exact stores_mikey hs ha (mikeyReg_atten c) rfl rfl (by simp [mikeyRegValue, State.setChannel])
    · exact stores_mikey (off := 0x44) hs rfl rfl rfl rfl rfl
    · exact stores_mikey (off := 0x50) hs rfl rfl rfl rfl rfl
    · exact stores_mikey (off := 0x92) hs rfl rfl rfl rfl rfl
    · rw [← withLo_eq]
      exact stores_mikey (off := 0x94) hs rfl rfl rfl rfl (loByte_withLo _ _)
    · rw [← withHi_eq]
      exact stores_mikey (off := 0x95) hs rfl rfl rfl rfl (hiByte_withHi _ _)
    · rw [mikey_offset off]
      exact stores_mikey_none hs (mikeyReg_none h)
  · refine ⟨?_, ?_, ?_, ?_, ?_, ?_, ?_, fun off h => ?_⟩
    · intro r hr
      obtain ⟨p, hp, rfl⟩ : ∃ p ∈ plainSuzyRegs, (pair 0xFC p.1, s.suzy.storeReg v p.2) = r := List.mem_map.1 hr
      exact stores_suzy_plain hs p hp
    · exact stores_suzy (off := 0x92) hs rfl rfl rfl (Suzy.sprsys_eq _)
    · exact peek_suzy_visible hs 0x91
    · exact stores_suzy (off := 0xB0) hs rfl rfl rfl rfl
    · exact stores_suzy (off := 0xB1) hs rfl rfl rfl rfl
    · exact memWrite_suzy (region_suzy_visible hs 0xB2)
    · exact memWrite_suzy (region_suzy_visible hs 0xB3)
    · rw [suzy_offset off]
      exact stores_suzy_none hs (suzyReg_none h)

end Sys2Proof.Machine

namespace Sys2Proof

open Sys2Proof.Machine

/-! ## The encoding (spec/30_encoding.md R83 to R87): O1, O2, O3

From bytes to instructions, what is said of the decoder is said of the entries of R83's table. From instructions to bytes, R83's
table has at the opcode of a well-formed instruction that instruction, up to the operand bytes (`EntryAt`): the one case split
over the mnemonics and their modes. Both directions then meet in `encode_decodeOp`. -/

/-! ### From bytes to instructions -/

/-- What does not depend on the operand bytes is decided by the opcode. -/
theorem decodeOp_congr {α : Type} (f : Instr → α) {bitops : Bool} {op lo hi : Byte}
    (rows : ∀ r, (opcodeRow bitops op lo hi (pair hi lo) r).map f = (opcodeRow bitops op 0 0 (pair 0 0) r).map f) :
    f (decodeOp bitops op lo hi) = f (decodeOp bitops op 0 0) := by
  rw [decodeOp_map f, decodeOp_map f, rows]

/-- The entries of the table are instructions of the machine (R83 to R86). -/
theorem decodeOp_wf (bitops : Bool) (op lo hi : Byte) : (decodeOp bitops op lo hi).wf bitops = true := by
  have closed : ∀ bitops op, (decodeOp bitops op 0 0).wf bitops = true := by decide
  rw [← closed bitops op]
  refine decodeOp_congr (Instr.wf bitops) fun r => ?_
  unfold opcodeRow
  cases bitops <;> split <;> rfl

/-- Every length is 1, 2 or 3 (R80). -/
theorem decodeOp_length (bitops : Bool) (op lo hi : Byte) :
    1 ≤ (decodeOp bitops op lo hi).length ∧ (decodeOp bitops op lo hi).length ≤ 3 := by
  have closed : ∀ bitops op, 1 ≤ (decodeOp bitops op 0 0).length ∧ (decodeOp bitops op 0 0).length ≤ 3 := by decide
  have same : (decodeOp bitops op lo hi).length = (decodeOp bitops op 0 0).length := by
    refine decodeOp_congr Instr.length fun r => ?_
    unfold opcodeRow
    cases bitops <;> split <;> rfl
  rw [same]
  exact closed bitops op

/-- What the decoder answers where the bytes of the instruction are all there. -/
theorem decode_cons {bitops : Bool} {op : Byte} {rest : List Byte} {i : Instr}
    (hi : decodeOp bitops op (rest.getD 0 0) (rest.getD 1 0) = i) (len : i.length ≤ rest.length + 1) :
    decode bitops (op :: rest) = .ok (i, rest.drop (i.length - 1)) := by
  subst hi
  exact if_pos len

/-- Three bytes are always enough. -/
theorem decode_three (bitops : Bool) (op lo hi : Byte) (rest : List Byte) :
    decode bitops (op :: lo :: hi :: rest) =
      .ok (decodeOp bitops op lo hi, (op :: lo :: hi :: rest).drop (decodeOp bitops op lo hi).length) := by
  obtain ⟨pos, le⟩ := decodeOp_length bitops op lo hi
  obtain ⟨k, hk⟩ := Nat.exists_eq_add_of_le' pos
  rw [decode_cons rfl (by simp; omega)]
  simp [hk]

/-- Settles O2: the table's entries are well-formed and at most three bytes long, and `encode_decodeOp` gives the bytes back. -/
theorem everyByteStringDecodesToItsOwnEncoding : Obligations.EveryByteStringDecodesToItsOwnEncoding := by
  intro bitops op b1 b2
  obtain ⟨pos, le⟩ := decodeOp_length bitops op b1 b2
  exact ⟨decodeOp_wf bitops op b1 b2, pos, le, encode_decodeOp bitops op b1 b2, decode_three bitops op b1 b2⟩

/-! ### Filling operand bytes in -/

/-- The same mode with other operand bytes: `lo` for a mode of one byte, `w` for a mode of two (R82). -/
def MemMode.refill (lo : Byte) (w : Addr) : MemMode → MemMode
  | .zp _ => .zp lo
  | .zpx _ => .zpx lo
  | .zpy _ => .zpy lo
  | .abs _ => .abs w
  | .abx _ => .abx w
  | .aby _ => .aby w
  | .izx _ => .izx lo
  | .izy _ => .izy lo
  | .izp _ => .izp lo

/-- As `MemMode.refill`; immediate data is one byte. -/
def Operand.refill (lo : Byte) (w : Addr) : Operand → Operand
  | .imm _ => .imm lo
  | .mem m => .mem (m.refill lo w)

/-- As `MemMode.refill`; the accumulator form has no operand byte. -/
def RmwOperand.refill (lo : Byte) (w : Addr) : RmwOperand → RmwOperand
  | .acc => .acc
  | .mem m => .mem (m.refill lo w)

/-- As `MemMode.refill`; every form of `JMP` has an address. -/
def JumpTarget.refill (w : Addr) : JumpTarget → JumpTarget
  | .abs _ => .abs w
  | .ind _ => .ind w
  | .iax _ => .iax w

/-- The first operand byte, as the decoder takes it. -/
def firstByte (l : List Byte) : Byte := l.getD 0 0

/-- The second operand byte, as the decoder takes it. -/
def secondByte (l : List Byte) : Byte := l.getD 1 0

/-- The two of them as an address, low byte first (R81). -/
def firstWord (l : List Byte) : Addr := pair (secondByte l) (firstByte l)

theorem firstWord_addrBytes (w : Addr) (rest : List Byte) : firstWord (addrBytes w ++ rest) = w := pair_hi_lo w

/-- A mode filled with its own operand bytes is itself, whatever follows them. -/
theorem MemMode.refill_bytes (m : MemMode) (rest : List Byte) :
    m.refill (firstByte (m.bytes ++ rest)) (firstWord (m.bytes ++ rest)) = m := by
  cases m with
  | zp z | zpx z | zpy z | izx z | izy z | izp z => rfl
  | abs w | abx w | aby w => simp [refill, bytes, firstWord_addrBytes]

theorem Operand.refill_bytes (o : Operand) (rest : List Byte) :
    o.refill (firstByte (o.bytes ++ rest)) (firstWord (o.bytes ++ rest)) = o := by
  cases o with
  | imm v => rfl
  | mem m => exact congrArg Operand.mem (m.refill_bytes rest)

theorem RmwOperand.refill_bytes (o : RmwOperand) (rest : List Byte) :
    o.refill (firstByte (o.bytes ++ rest)) (firstWord (o.bytes ++ rest)) = o := by
  cases o with
  | acc => rfl
  | mem m => exact congrArg RmwOperand.mem (m.refill_bytes rest)

theorem JumpTarget.refill_bytes (t : JumpTarget) (rest : List Byte) : t.refill (firstWord (t.bytes ++ rest)) = t := by
  cases t with
  | abs w | ind w | iax w => simp [refill, bytes, firstWord_addrBytes]

/-! ### From instructions to bytes -/

/-- At the opcode, if there is one, R83's table has the entry `f lo hi w`, for all operand bytes `lo` and `hi` and their word. -/
def EntryAt (bitops : Bool) (opcode : Option Byte) (f : Byte → Byte → Addr → Instr) : Prop :=
  ∃ op, opcode = some op ∧
    ∀ lo hi w, (opcodeRow bitops op lo hi w (op.toNat / 16)).getD (op.toNat % 16) (.nop1 op) = f lo hi w

/-- The opcode and the operand bytes of `i` are decoded as `i`, whatever follows them. -/
def ReadsBack (bitops : Bool) (i : Instr) : Prop :=
  ∃ op, i.opcode = some op ∧
    ∀ rest, decodeOp bitops op (firstByte (i.operandBytes ++ rest)) (secondByte (i.operandBytes ++ rest)) = i

section

variable {bitops : Bool}

/-- An instruction reads back where the entry at its opcode, filled with its operand bytes, is the instruction. -/
theorem EntryAt.readsBack {i : Instr} {f : Byte → Byte → Addr → Instr} (h : EntryAt bitops i.opcode f)
    (fill : ∀ rest, f (firstByte (i.operandBytes ++ rest)) (secondByte (i.operandBytes ++ rest))
      (firstWord (i.operandBytes ++ rest)) = i) : ReadsBack bitops i := by
  obtain ⟨op, hop, entry⟩ := h
  exact ⟨op, hop, fun rest => (entry _ _ _).trans (fill rest)⟩

theorem readsBack_implied {i : Instr} (h : EntryAt bitops i.opcode fun _ _ _ => i) : ReadsBack bitops i :=
  h.readsBack fun _ => rfl

theorem readsBack_byte {mk : Byte → Instr} {z : Byte} (bytes : (mk z).operandBytes = [z])
    (h : EntryAt bitops (mk z).opcode fun lo _ _ => mk lo) : ReadsBack bitops (mk z) :=
  h.readsBack fun rest => by rw [bytes]; rfl

theorem readsBack_two {mk : Byte → Byte → Instr} {z off : Byte} (bytes : (mk z off).operandBytes = [z, off])
    (h : EntryAt bitops (mk z off).opcode fun lo hi _ => mk lo hi) : ReadsBack bitops (mk z off) :=
  h.readsBack fun rest => by rw [bytes]; rfl

theorem readsBack_addr {mk : Addr → Instr} {w : Addr} (bytes : (mk w).operandBytes = addrBytes w)
    (h : EntryAt bitops (mk w).opcode fun _ _ w' => mk w') : ReadsBack bitops (mk w) :=
  h.readsBack fun rest => by rw [bytes, firstWord_addrBytes]

theorem readsBack_mem {mk : MemMode → Instr} {m : MemMode} (bytes : (mk m).operandBytes = m.bytes)
    (h : EntryAt bitops (mk m).opcode fun lo _ w => mk (m.refill lo w)) : ReadsBack bitops (mk m) :=
  h.readsBack fun rest => by rw [bytes, m.refill_bytes]

theorem readsBack_operand {mk : Operand → Instr} {o : Operand} (bytes : (mk o).operandBytes = o.bytes)
    (h : EntryAt bitops (mk o).opcode fun lo _ w => mk (o.refill lo w)) : ReadsBack bitops (mk o) :=
  h.readsBack fun rest => by rw [bytes, o.refill_bytes]

theorem readsBack_rmw {mk : RmwOperand → Instr} {o : RmwOperand} (bytes : (mk o).operandBytes = o.bytes)
    (h : EntryAt bitops (mk o).opcode fun lo _ w => mk (o.refill lo w)) : ReadsBack bitops (mk o) :=
  h.readsBack fun rest => by rw [bytes, o.refill_bytes]

/-! The undefined opcodes (R85, R86), by the columns of R83's table. -/

/-- Column 3 is undefined in every row. -/
theorem opcodeRow_column3 (op lo hi : Byte) (w : Addr) (r : Nat) :
    (opcodeRow bitops op lo hi w r).getD 3 (.nop1 op) = .nop1 op := by
  unfold opcodeRow
  split <;> rfl

/-- Column B is, but for WAI in row C and STP in row D. -/
theorem opcodeRow_columnB (op lo hi : Byte) (w : Addr) {r : Nat} (wai : r ≠ 12) (stp : r ≠ 13) :
    (opcodeRow bitops op lo hi w r).getD 11 (.nop1 op) = .nop1 op := by
  unfold opcodeRow
  split <;> trivial

/-- Columns 7 and F are where `BITOPS` is off. -/
theorem opcodeRow_column7 (op lo hi : Byte) (w : Addr) (r : Nat) :
    (opcodeRow false op lo hi w r).getD 7 (.nop1 op) = .nop1 op := by
  unfold opcodeRow
  split <;> rfl

theorem opcodeRow_columnF (op lo hi : Byte) (w : Addr) (r : Nat) :
    (opcodeRow false op lo hi w r).getD 15 (.nop1 op) = .nop1 op := by
  unfold opcodeRow
  split <;> rfl

theorem entryAt_nop1 {op : Byte} (h : isUndefined1 bitops op = true) : EntryAt bitops (some op) fun _ _ _ => .nop1 op := by
  refine ⟨op, rfl, fun lo hi w => ?_⟩
  simp only [isUndefined1, isBitopColumn, Bool.or_eq_true, Bool.and_eq_true, beq_iff_eq, bne_iff_ne, Bool.not_eq_true'] at h
  obtain (col | ⟨⟨col, wai⟩, stp⟩) | ⟨col | col, rfl⟩ := h <;> rw [col]
  · exact opcodeRow_column3 op lo hi w _
  · exact opcodeRow_columnB op lo hi w (by bv_omega) (by bv_omega)
  · exact opcodeRow_column7 op lo hi w _
  · exact opcodeRow_columnF op lo hi w _

theorem entryAt_nop2 {op : Byte} (h : isUndefined2 op = true) : EntryAt bitops (some op) fun lo _ _ => .nop2 op lo := by
  simp only [isUndefined2, List.contains_eq_mem, decide_eq_true_eq, List.mem_cons, List.not_mem_nil, or_false] at h
  refine ⟨op, rfl, fun lo hi w => ?_⟩
  obtain rfl | rfl | rfl | rfl | rfl | rfl | rfl | rfl | rfl | rfl | rfl := h <;> rfl

theorem entryAt_nop3 {op : Byte} (h : isUndefined3 op = true) : EntryAt bitops (some op) fun _ _ w => .nop3 op w := by
  simp only [isUndefined3, List.contains_eq_mem, decide_eq_true_eq, List.mem_cons, List.not_mem_nil, or_false] at h
  refine ⟨op, rfl, fun lo hi w => ?_⟩
  obtain rfl | rfl | rfl := h <;> rfl

/-- Every well-formed instruction reads back: the modes a mnemonic admits (R84) are the ones its opcode function has, and R83's
table has the mnemonic in that mode at that opcode. `cases h` leaves the admitted modes. -/
theorem readsBack_of_wf {i : Instr} (h : i.wf bitops = true) : ReadsBack bitops i := by
  cases i with
  | lda o | ldx o | ldy o | adc o | sbc o | and o | ora o | eor o | cmp o | cpx o | cpy o | bit o =>
    refine readsBack_operand rfl ?_
    cases o with
    | imm v => exact ⟨_, rfl, fun _ _ _ => rfl⟩
    | mem m => cases m <;> cases h <;> exact ⟨_, rfl, fun _ _ _ => rfl⟩
  | sta m | stx m | sty m | stz m | tsb m | trb m =>
    refine readsBack_mem rfl ?_
    cases m <;> cases h <;> exact ⟨_, rfl, fun _ _ _ => rfl⟩
  | asl o | lsr o | rol o | ror o | inc o | dec o =>
    refine readsBack_rmw rfl ?_
    cases o with
    | acc => exact ⟨_, rfl, fun _ _ _ => rfl⟩
    | mem m => cases m <;> cases h <;> exact ⟨_, rfl, fun _ _ _ => rfl⟩
  | tax | tay | txa | tya | tsx | txs | pha | phx | phy | php | pla | plx | ply | plp | inx | iny | dex | dey | rts | rti
  | clc | sec | cli | sei | cld | sed | clv | nop | wai | stp =>
    exact readsBack_implied ⟨_, rfl, fun _ _ _ => rfl⟩
  | bcc off | bcs off | beq off | bne off | bmi off | bpl off | bvc off | bvs off | bra off | brk off =>
    exact readsBack_byte rfl ⟨_, rfl, fun _ _ _ => rfl⟩
  | jmp t =>
    refine EntryAt.readsBack (f := fun _ _ w => .jmp (t.refill w)) ?_ fun rest => congrArg Instr.jmp (t.refill_bytes rest)
    cases t with
    | abs w => exact ⟨0x4C, rfl, fun _ _ _ => rfl⟩
    | ind w => exact ⟨0x6C, rfl, fun _ _ _ => rfl⟩
    | iax w => exact ⟨0x7C, rfl, fun _ _ _ => rfl⟩
  | jsr w => exact readsBack_addr rfl ⟨_, rfl, fun _ _ _ => rfl⟩
  | nop1 op => exact readsBack_implied (entryAt_nop1 h)
  | nop2 op b1 => exact readsBack_byte rfl (entryAt_nop2 h)
  | nop3 op w => exact readsBack_addr rfl (entryAt_nop3 h)
  | rmb0 z | rmb1 z | rmb2 z | rmb3 z | rmb4 z | rmb5 z | rmb6 z | rmb7 z
  | smb0 z | smb1 z | smb2 z | smb3 z | smb4 z | smb5 z | smb6 z | smb7 z =>
    obtain rfl : bitops = true := h
    exact readsBack_byte rfl ⟨_, rfl, fun _ _ _ => rfl⟩
  | bbr0 z off | bbr1 z off | bbr2 z off | bbr3 z off | bbr4 z off | bbr5 z off | bbr6 z off | bbr7 z off
  | bbs0 z off | bbs1 z off | bbs2 z off | bbs3 z off | bbs4 z off | bbs5 z off | bbs6 z off | bbs7 z off =>
    obtain rfl : bitops = true := h
    exact readsBack_two rfl ⟨_, rfl, fun _ _ _ => rfl⟩

/-- What reads back is a decoded instruction, so `operandBytes_decodeOp` counts its operand bytes. -/
theorem ReadsBack.length_operandBytes {i : Instr} (h : ReadsBack bitops i) : i.operandBytes.length + 1 = i.length := by
  obtain ⟨op, -, back⟩ := h
  have bytes := operandBytes_decodeOp bitops op (firstByte (i.operandBytes ++ [])) (secondByte (i.operandBytes ++ []))
  have len := decodeOp_length bitops op (firstByte (i.operandBytes ++ [])) (secondByte (i.operandBytes ++ []))
  rw [back] at bytes len
  have count := congrArg List.length bytes
  simp only [List.length_cons, List.length_take, List.length_nil] at count
  omega

end

/-- Settles O1: the instruction reads back, and its length is that of its encoding. -/
theorem decodeOfEncodeIsTheInstruction : Obligations.DecodeOfEncodeIsTheInstruction := by
  intro bitops i rest hwf
  have hback := readsBack_of_wf hwf
  have len := hback.length_operandBytes
  obtain ⟨op, hop, back⟩ := hback
  have enc : encode i = op :: i.operandBytes := by rw [encode, hop]
  rw [enc, List.cons_append]
  refine ⟨len, (decode_cons (back rest) (by simp; omega)).trans ?_⟩
  rw [← len, Nat.add_sub_cancel, List.drop_left]

/-- Settles O3: the decoder, run on each word. -/
theorem decodedWordsOfEachFamily : Obligations.DecodedWordsOfEachFamily :=
  ⟨rfl, rfl, rfl, rfl, rfl, rfl, rfl, rfl, rfl, rfl, rfl, rfl, rfl, rfl, rfl, rfl⟩

end Sys2Proof

namespace Sys2Proof.Machine

/-! ## Addressing and the step: O4, O5, O22, O38

Resolving an address is reads alone (`resolve_quiet`), and a read changes no byte but a data port's: so an operand is the byte
that stood at the effective address. The step's look-ahead is two fetches and, for `JSR`, two pushes, so it finds the bytes at
`PC` by the same argument. -/

variable {s : State}

/-! ### Page crossing (R118, R119) -/

theorem loByte_toNat (a : Addr) : (loByte a).toNat = a.toNat % 256 := by
  simp [loByte]

/-- The index is added modulo 65536 (R119). -/
theorem indexed_toNat (a : Addr) (i : Byte) : (indexed a i).toNat = (a.toNat + i.toNat) % 65536 := by
  simp only [indexed, BitVec.toNat_add, BitVec.toNat_setWidth]
  have := i.isLt
  omega

/-- A carry out of the low byte is a change of the high byte. -/
theorem crosses_iff_hiByte_ne (base : Addr) (i : Byte) :
    crosses base i = true ↔ hiByte (indexed base i) ≠ hiByte base := by
  have := base.isLt
  have := i.isLt
  simp only [crosses, decide_eq_true_eq, ne_eq, ← BitVec.toNat_inj, hiByte_toNat, loByte_toNat, indexed_toNat]
  omega

/-- Without a carry the uncarried sum is the sum (R118). -/
theorem uncarried_eq_indexed {base : Addr} {i : Byte} (h : crosses base i = false) : uncarried base i = indexed base i := by
  have := base.isLt
  apply BitVec.eq_of_toNat_eq
  simp only [crosses, decide_eq_false_iff_not, loByte_toNat] at h
  simp only [uncarried, pair_toNat, BitVec.toNat_add, hiByte_toNat, loByte_toNat, indexed_toNat]
  omega

/-- Settles O4: the first equivalence is the definition of `crosses`, the others are arithmetic on the two bytes of the sum. -/
theorem pageCrossingIsACarryOutOfTheLowByte : Obligations.PageCrossingIsACarryOutOfTheLowByte := by
  intro base i
  exact ⟨decide_eq_true_iff, crosses_iff_hiByte_ne base i, uncarried_eq_indexed⟩

/-! ### Operands (R103 to R112, R117) -/

/-- The byte a class R instruction reads, in the state its resolving leaves. -/
theorem operandValue_mem (m : MemMode) (s : State) :
    operandValue (.mem m) s = peek (resolve .read m (fetchOpcode s)).2 (effectiveAddress m s) := by
  rw [← resolve_fst .read m s]
  rfl

/-- The byte a class M instruction reads, in the state its resolving leaves. -/
theorem modifyValue_eq_peek (m : MemMode) (s : State) :
    modifyValue m s = peek (resolve .modify m (fetchOpcode s)).2 (effectiveAddress m s) := by
  rw [← resolve_fst .modify m s]
  rfl

/-- Resolving an address changes no byte but a data port's. -/
theorem peek_resolve (cls : AccessClass) (m : MemMode) {a : Addr} (h : isPort s.mapctl a = false) :
    peek (resolve cls m (fetchOpcode s)).2 a = peek s a := (resolve_quiet cls m s).peek h rfl

/-- Class M resolves its address in as many cycles as class W (R117). -/
theorem resolve_modify_quiet (m : MemMode) (s : State) :
    Quiet (writeCycles m - 1) s (resolve .modify m (fetchOpcode s)).2 := by
  have cycles : memCycles .modify m s - dataCycles .modify = writeCycles m - 1 :=
    Nat.add_sub_add_right (writeCycles m) 2 1
  exact cycles ▸ resolve_quiet .modify m s

/-- Settles O5: the addresses are `resolve_fst`; the operand is read in the state that resolving leaves, which is quiet. -/
theorem operandsComeFromTheEffectiveAddress : Obligations.OperandsComeFromTheEffectiveAddress := by
  refine ⟨fun _ _ => rfl, fun m s => ⟨resolve_fst .write m s, resolve_fst .modify m s, ?_, ?_, fun plain => ⟨?_, ?_⟩⟩⟩
  · exact ⟨_, resolve_quiet .read m s, operandValue_mem m s⟩
  · exact ⟨_, resolve_modify_quiet m s, modifyValue_eq_peek m s⟩
  · rw [operandValue_mem, peek_resolve .read m plain]
  · rw [modifyValue_eq_peek, peek_resolve .modify m plain]

/-! ### Accumulator forms (R102) -/

/-- What an accumulator form does, once: two cycles, then `A` and the flags as its function says. -/
theorem exec_accumulator {i : Instr} {f : Byte → Flags → Byte × Flags} {r : Byte} {p : Flags}
    (hexec : exec i s = .next (modifyAccumulator f (fetchOpcode s))) (hf : f s.a s.p = (r, p)) :
    ∃ t, exec i s = .next t ∧ t.core = { s.core with a := r, p := p, pc := pcAfter s 1 } ∧ Quiet 2 s t := by
  refine ⟨_, hexec, ?_, ((implied_quiet s).setA _).setP _⟩
  simp [modifyAccumulator, hf, pcAfter]

theorem rolByte_eq (m : Byte) (p : Flags) :
    rolByte m p =
      let r := m <<< 1 ||| (if p.c then 1 else 0 : Byte)
      (r, { p.setNZ r with c := m.getLsbD 7 }) := by
  simp only [rolByte, rol_eq]

theorem rorByte_eq (m : Byte) (p : Flags) :
    rorByte m p =
      let r := m >>> 1 ||| (if p.c then 1 else 0 : Byte) <<< 7
      (r, { p.setNZ r with c := m.getLsbD 0 }) := by
  simp only [rorByte, ror_eq]

/-- Settles O22: form by form, with the rotates' bytes as shifts with the carry put in. -/
theorem accumulatorFormsChangeOnlyA : Obligations.AccumulatorFormsChangeOnlyA := by
  intro s
  simp only [List.forall_mem_cons]
  exact ⟨exec_accumulator rfl rfl, exec_accumulator rfl rfl, exec_accumulator rfl (rolByte_eq s.a s.p),
    exec_accumulator rfl (rorByte_eq s.a s.p), exec_accumulator rfl rfl, exec_accumulator rfl rfl, List.forall_mem_nil _⟩

/-! ### The bytes at `PC` (R100) -/

theorem peek_fetchOpcode {a : Addr} (h : isPort s.mapctl a = false) : peek (fetchOpcode s) a = peek s a :=
  (Quiet.refl s).fetchOpcode.peek h rfl

theorem peek_fetchOperand {a : Addr} (h : isPort s.mapctl a = false) : peek (fetchOperand s) a = peek s a :=
  (Quiet.refl s).fetchOperand.peek h rfl

/-- A push changes the byte at the stack pointer and no other, whatever form RAM is in. -/
theorem peek_push {a : Addr} (v : Byte) (h : isPort s.mapctl a = false) (ha : a ≠ stackAddr s.sp) :
    peek (push v s) a = peek s a := by
  rw [push_eq]
  exact peek_congr rfl (Memory.read_write_other _ v ha) rfl rfl rfl rfl rfl rfl h

@[simp] theorem callFrame_pc (s : State) : (callFrame s).pc = s.pc := by
  simp [callFrame, pushPc, dummyRead]

/-- What `JSR` does between its two fetches changes the two stack bytes it writes and no other (R243). -/
theorem peek_callFrame {a : Addr} (h : isPort s.mapctl a = false) (h0 : a ≠ stackAddr s.sp) (h1 : a ≠ stackAddr (s.sp - 1)) :
    peek (callFrame s) a = peek s a := by
  have read := peek_afterRead .dummyRead (stackAddr s.sp) h
  rw [callFrame, pushPc, peek_push _ (by simpa [dummyRead] using h) (by simpa [dummyRead] using h1),
    peek_push _ (by simpa [dummyRead] using h) (by simpa [dummyRead] using h0), dummyRead, read]

/-- The look-ahead finds the bytes that memory shows at `PC` and after it. -/
theorem instrBytes_eq (hport1 : isPort s.mapctl (s.pc + 1) = false) (hport2 : isPort s.mapctl (s.pc + 2) = false)
    (hjsr : peek s s.pc = jsrOpcode → s.pc + 2 ≠ stackAddr s.sp ∧ s.pc + 2 ≠ stackAddr (s.sp - 1)) :
    instrBytes s = (peek s s.pc, peek s (s.pc + 1), peek s (s.pc + 2)) := by
  have pc2 : s.pc + 1 + 1 = s.pc + 2 := (pcAfter_two s).symm
  have second : peek (fetchOpcode s) (s.pc + 1) = peek s (s.pc + 1) := peek_fetchOpcode hport1
  have third : peek (fetchOperand (fetchOpcode s)) (s.pc + 2) = peek s (s.pc + 2) := by
    rw [peek_fetchOperand (by simpa using hport2), peek_fetchOpcode hport2]
  by_cases hop : peek s s.pc = jsrOpcode
  · obtain ⟨h0, h1⟩ := hjsr hop
    have framed : peek (callFrame (fetchOperand (fetchOpcode s))) (s.pc + 2) = peek s (s.pc + 2) := by
      rw [peek_callFrame (by simpa using hport2) (by simpa using h0) (by simpa using h1), third]
    simp only [instrBytes, if_pos hop, callFrame_pc, fetchOperand_pc, fetchOpcode_pc, pc2, second, framed]
  · simp only [instrBytes, if_neg hop, fetchOperand_pc, fetchOpcode_pc, pc2, second, third]

/-! ### The step and the tick (R300, R301, R347) -/

/-- Where the bytes at `PC` decode to `i`, a core that executes steps by the meaning of `i` and then the tick. -/
theorem step_of_decode {i : Instr} {rest : List Byte} (hs : Executes s)
    (hd : decode s.params.bitops (lookahead (beginStep s)) = .ok (i, rest)) :
    (∀ t, exec i (beginStep s) = .next t → step s = .next (platformTick t)) ∧
      (∀ f, exec i (beginStep s) = .fault f → step s = .fault f) := by
  have execute : boundary (beginStep s) = .execute := (executes_iff_boundary _).1 hs
  have decoded : instrAt (beginStep s) = i := by
    rw [lookahead, decode_three] at hd
    cases hd
    rfl
  constructor <;> intro _ h <;> simp only [step, execute, decoded, h]

/-- Where the boundary takes something else, the step is that and the tick. -/
theorem step_of_boundary_done {t : State} (h : boundary (beginStep s) = .done t) : step s = .next (platformTick t) := by
  simp only [step, h]

/-- The IRQ line as the tick leaves it (R347). -/
theorem recomputeIrq_eq (s : State) :
    recomputeIrq s =
      s.setIrqLine (decide (∃ n : Fin 8, s.pending.getLsbD n.val = true ∧ s.timers[n].ctla.getLsbD 7 = true)) := by
  have line : s.irqAsserted = decide (∃ n : Fin 8, s.pending.getLsbD n.val = true ∧ s.timers[n].ctla.getLsbD 7 = true) := by
    rw [Bool.eq_iff_iff, irqAsserted_iff, decide_eq_true_iff]
  rw [recomputeIrq, line]

/-- Settles O38: the step by what its boundary answers, what the tick leaves alone (`platformTick_ticked`), the tick's order as
defined, and the look-ahead's bytes (`instrBytes_eq`). -/
theorem stepRunsTheDecodedInstruction : Obligations.StepRunsTheDecodedInstruction := by
  refine ⟨fun s i rest hs hd => ?_, fun s t h => step_of_boundary_done h, fun t => ⟨rfl, rfl, recomputeIrq_eq _⟩,
    fun s hport1 hport2 hjsr => instrBytes_eq (s := beginStep s) hport1 hport2 hjsr⟩
  obtain ⟨next, fault⟩ := step_of_decode hs hd
  refine ⟨fun t h => ?_, fault⟩
  have tick := platformTick_ticked t
  exact ⟨_, next t h, rfl, tick.core, tick.cyc, tick.ram, tick.mapctl, tick.suzy, tick.cart, tick.bus⟩

end Sys2Proof.Machine

namespace Sys2Proof.Machine

/-! ## Loads, stores, transfers, the stack (spec/41_load_store_transfer.md): O6 to O11

Each instruction is accesses that write nothing, then one effect: a byte into one register (loads, transfers, pulls,
`completes_withNZ`), or one bus write (stores, pushes). What the accesses read and leave is in the laws (`readOperand_quiet`,
`implied_quiet`, `resolve_quiet`); what a bus write does depends on what answers at its address. -/

variable {s t u : State} {n : Nat} {c : CoreRegs} {i : Instr} {v off : Byte} {ws : List BusEvent} {mem : Addr → Byte}
variable {set : State → Byte → State} {put : CoreRegs → Byte → CoreRegs}

/-! ### A byte into a register, with its flags -/

/-- `set` writes one byte register, which in the core's registers is `put`, and touches nothing else. -/
structure WritesRegister (set : State → Byte → State) (put : CoreRegs → Byte → CoreRegs) : Prop where
  core : ∀ t v, (set t v).core = put t.core v
  frame : ∀ {n s t} v, Quiet n s t → Quiet n s (set t v)

theorem writesRegister_setA : WritesRegister State.setA fun c v => { c with a := v } := ⟨setA_core, fun v h => h.setA v⟩

theorem writesRegister_setX : WritesRegister State.setX fun c v => { c with x := v } := ⟨setX_core, fun v h => h.setX v⟩

theorem writesRegister_setY : WritesRegister State.setY fun c v => { c with y := v } := ⟨setY_core, fun v h => h.setY v⟩

/-- After accesses that write nothing, the byte goes into its register and `N Z` are set from it. -/
theorem WritesRegister.completes_withNZ (hset : WritesRegister set put) (hcore : u.core = c) (hq : Quiet n s u)
    (hexec : exec i s = .next ((set u v).setNZ v)) :
    ∃ t, exec i s = .next t ∧
      t.core = { put c v with p := { (put c v).p with n := v.getLsbD 7, z := decide (v = 0) } } ∧ Quiet n s t := by
  refine ⟨_, hexec, ?_, (hset.frame v hq).setNZ v⟩
  rw [setNZ_core, hset.core, hcore, ← core_p, hset.core, hcore]
  rfl

/-- Settles O6: reading the operand (`readOperand_core`, `readOperand_quiet`), then the register. -/
theorem loadsWriteTheirRegisterAndNZ : Obligations.LoadsWriteTheirRegisterAndNZ := by
  intro o s
  have hcore := readOperand_core o s
  have hq := readOperand_quiet o s
  exact ⟨writesRegister_setA.completes_withNZ hcore hq rfl, writesRegister_setX.completes_withNZ hcore hq rfl,
    writesRegister_setY.completes_withNZ hcore hq rfl⟩

/-- An implied instruction before its own effect: `PC` past its one byte. -/
theorem implied_fetchOpcode_core (s : State) : (implied (fetchOpcode s)).core = { s.core with pc := pcAfter s 1 } := by
  simp [pcAfter]

/-- Settles O9: two reads (`implied_quiet`), then the register; `TXS` has no flags to set. -/
theorem transfersMoveOneRegister : Obligations.TransfersMoveOneRegister := by
  intro s
  have hcore := implied_fetchOpcode_core s
  have hq := implied_quiet s
  refine ⟨writesRegister_setX.completes_withNZ hcore hq rfl, writesRegister_setY.completes_withNZ hcore hq rfl,
    writesRegister_setA.completes_withNZ hcore hq rfl, writesRegister_setA.completes_withNZ hcore hq rfl,
    writesRegister_setX.completes_withNZ hcore hq rfl, _, rfl, ?_, hq.setSp _⟩
  rw [setSp_core, hcore]

/-! ### The stack (R22, R143 to R150) -/

/-- The stack pointer's address, as R22 writes it. -/
theorem stackAddr_eq_add (sp : Byte) : stackAddr sp = 0x0100 + sp.setWidth 16 := (base_add_offset 1 sp).symm

/-- A push instruction: two reads, then the push. -/
theorem pushRegister_spec (hwf : Memory.wf s.ram = true) (v : Byte) :
    (pushRegister v (fetchOpcode s)).core = { s.core with sp := s.sp - 1, pc := pcAfter s 1 } ∧
      Frame 3 [.write .stackWrite (stackAddr s.sp) v] (stored s (stackAddr s.sp) v) s (pushRegister v (fetchOpcode s)) := by
  have hsp : (implied (fetchOpcode s)).sp = s.sp := by simp
  constructor
  · rw [pushRegister, push_core, hsp, implied_fetchOpcode_core]
  · have frame := (implied_quiet s).push hwf v
    rw [hsp] at frame
    exact frame

/-- Settles O10: the four pushes differ in the byte alone. -/
theorem pushesStoreAtTheStackPointer : Obligations.PushesStoreAtTheStackPointer := by
  intro s hwf
  simp only [List.forall_mem_cons, ← stackAddr_eq_add]
  exact ⟨⟨_, rfl, pushRegister_spec hwf _⟩, ⟨_, rfl, pushRegister_spec hwf _⟩, ⟨_, rfl, pushRegister_spec hwf _⟩,
    ⟨_, rfl, pushRegister_spec hwf _⟩, List.forall_mem_nil _⟩

/-- The byte a pull instruction finds: its dummy reads change no RAM and not the stack pointer. -/
theorem pullRegister_fst (s : State) :
    (pullRegister (fetchOpcode s)).1 = Memory.read s.ram (stackAddr (s.sp + 1)) := by
  simp [pullRegister, pull_fst, implied, dummyRead]

theorem pullRegister_core (s : State) :
    (pullRegister (fetchOpcode s)).2.core = { s.core with sp := s.sp + 1, pc := pcAfter s 1 } := by
  simp [pullRegister, dummyRead, pcAfter]

/-- A pull instruction is four reads. -/
theorem pullRegister_quiet (s : State) : Quiet 4 s (pullRegister (fetchOpcode s)).2 :=
  ((implied_quiet s).afterRead .dummyRead _).pull

/-- A pull into a register: the byte above the stack pointer, which rises by one. -/
theorem WritesRegister.completes_pull (hset : WritesRegister set put) (hexec : exec i s = .next (pullInto set s)) :
    let v := Memory.read s.ram (stackAddr (s.sp + 1))
    let c := put { s.core with sp := s.sp + 1, pc := pcAfter s 1 } v
    ∃ t, exec i s = .next t ∧ t.core = { c with p := { c.p with n := v.getLsbD 7, z := decide (v = 0) } } ∧ Quiet 4 s t := by
  rw [← pullRegister_fst]
  exact hset.completes_withNZ (pullRegister_core s) (pullRegister_quiet s) hexec

/-- Settles O11: the pull, then the register (`WritesRegister.completes_pull`), or the six flags. -/
theorem pullsReadAboveTheStackPointer : Obligations.PullsReadAboveTheStackPointer := by
  intro s
  rw [← stackAddr_eq_add]
  refine ⟨writesRegister_setA.completes_pull rfl, writesRegister_setX.completes_pull rfl,
    writesRegister_setY.completes_pull rfl, _, rfl, ?_, (pullRegister_quiet s).setP _⟩
  rw [setP_core, pullRegister_core, pullRegister_fst]
  rfl

/-! ### Stores (R133 to R136) -/

/-- Settles O7: the four stores are `storeOperand` of a register or of zero (`storeOperand_eq`), after the reads that resolve the
address. -/
theorem storesAreOneBusWriteAtTheirAddress : Obligations.StoresAreOneBusWriteAtTheirAddress := by
  intro m s
  have hcore := resolve_core .write m s
  have hq : Quiet (writeCycles m - 1) s (resolve .write m (fetchOpcode s)).2 := resolve_quiet .write m s
  simp only [List.forall_mem_cons]
  exact ⟨⟨_, _, rfl, rfl, hq, hcore, memWrite_core ..⟩, ⟨_, _, rfl, rfl, hq, hcore, memWrite_core ..⟩,
    ⟨_, _, rfl, rfl, hq, hcore, memWrite_core ..⟩, ⟨_, _, rfl, rfl, hq, hcore, memWrite_core ..⟩, List.forall_mem_nil _⟩

/-! ### What a bus write leaves alone where no RAM answers (R54, R57) -/

/-- The cycle of a write, before what it does where it goes. -/
theorem Frame.cycleWrite (h : Frame n ws mem s t) (k : WriteKind) (a : Addr) (v : Byte) :
    Frame (n + 1) (.write k a v :: ws) mem s (t.cycle (.write k a v)) := by
  obtain ⟨hcyc, ⟨ev, hlen, hwrites, hbus, hcart⟩, hmem, hwf, hdev⟩ := h
  refine ⟨by rw [State.cycle_cyc, hcyc]; rfl, ⟨.write k a v :: ev, by rw [List.length_cons, hlen],
    by rw [List.filter_cons_of_pos rfl, hwrites], by rw [State.cycle_bus, hbus]; rfl, ?_⟩, hmem, hwf, { hdev with }⟩
  simpa [portReads, isPortRead] using hcart

/-- RAM written, outside of a bus access. -/
theorem Frame.writeRam (h : Frame n ws mem s t) (hwf : Memory.wf s.ram = true) (a : Addr) (v : Byte) :
    Frame n ws (fun b => if b = a then v else mem b) s (t.writeRam a v) := by
  have canonical := h.canonical hwf
  refine ⟨h.cycles, h.events, fun b => ?_, fun _ => Memory.write_wf canonical a v, { h.devices with }⟩
  rw [State.writeRam_ram, Memory.read_write canonical, h.memory]

/-- A write to a visible ROM window: nothing, or the RAM beneath under `ROM_WRITE_THROUGH`. -/
theorem Frame.memWrite_rom (h : Frame n ws mem s t) (hwf : Memory.wf s.ram = true) (k : WriteKind) {a : Addr} (v : Byte)
    {off : Nat} (ha : region s.mapctl a = .rom off) :
    Frame (n + 1) (.write k a v :: ws)
      (if s.params.romWriteThrough then fun b => if b = a then v else mem b else mem) s (Machine.memWrite k a v t) := by
  rw [Machine.memWrite_rom (h.devices.mapctl ▸ ha), h.devices.params]
  split
  · exact (h.cycleWrite k a v).writeRam hwf a v
  · exact h.cycleWrite k a v

@[simp] theorem mikeyWrite_cyc (off v : Byte) (s : State) : (mikeyWrite off v s).cyc = s.cyc := by
  unfold mikeyWrite
  cases mikeyReg off with
  | none => rfl
  | some r => cases r <;> rfl

@[simp] theorem mikeyWrite_suzy (off v : Byte) (s : State) : (mikeyWrite off v s).suzy = s.suzy := by
  unfold mikeyWrite
  cases mikeyReg off with
  | none => rfl
  | some r => cases r <;> rfl

/-- A divide changes Suzy and the count of free values only (R366). -/
theorem divide_eq (s : State) : ∃ z k, divide s = { s with suzy := z, freeCtr := k } := by
  unfold divide
  dsimp only
  split <;> exact ⟨_, _, rfl⟩

/-- So does a math byte written, with the multiply or divide it starts (R360). -/
theorem writeMath_eq (s : State) (v : Byte) (r : MathByte) : ∃ z k, writeMath s v r = { s with suzy := z, freeCtr := k } := by
  cases r with
  | e => exact divide_eq _
  | a | b | c | d | f | g | h | j | k | l | m | n | p => exact ⟨_, _, rfl⟩

theorem eq_of_suzyReg_sprgo {off : Byte} (h : suzyReg off = some .sprgo) : off = 0x91 := by
  revert off
  decide

/-- A write to a Suzy register other than `SPRGO` changes Suzy and the count of free values only (R360). -/
theorem suzyWrite_eq (h : off ≠ 0x91) (v : Byte) (s : State) :
    ∃ z k, suzyWrite off v s = { s with suzy := z, freeCtr := k } := by
  unfold suzyWrite
  cases hr : suzyReg off with
  | none => exact ⟨_, _, rfl⟩
  | some r =>
    cases r with
    | math r => exact writeMath_eq s v r
    | sprgo => exact absurd (eq_of_suzyReg_sprgo hr) h
    | wordLo w | wordHi w | sprsys | joystick | switches | rcart b => exact ⟨_, _, rfl⟩

/-- Settles O8: the one write of O7, by what answers at its address. -/
theorem storesChangeOneByteOfMemory : Obligations.StoresChangeOneByteOfMemory := by
  intro m s hwf c hc ea core'
  obtain ⟨u, t, hexec, rfl, hq, hcu, hct⟩ := storesAreOneBusWriteAtTheirAddress m s c hc
  have hcore := hct.trans hcu
  have last : writeCycles m - 1 + 1 = writeCycles m := by cases m <;> rfl
  have hcyc : u.cyc + 1 = s.cyc + writeCycles m := by rw [hq.cycles, Nat.add_assoc, last]
  have answers : ∀ {r}, region s.mapctl ea = r → region u.mapctl ea = r := fun h => hq.devices.mapctl ▸ h
  refine ⟨fun h => ⟨_, hexec, hcore, ?ram⟩, fun off h => ⟨_, hexec, hcore, ?rom⟩, fun h => ⟨_, hexec, hcore, ?mapctl⟩,
    fun off h => ⟨_, hexec, hcore, ?mikey⟩, fun off h notSprgo => ⟨_, hexec, hcore, ?suzy⟩⟩
  case ram =>
    rw [← last]
    exact hq.memWrite hwf .write c.2 h
  case rom =>
    rw [← last]
    exact hq.memWrite_rom hwf .write c.2 h
  case mapctl =>
    rw [memWrite_mapctl (answers h)]
    exact ⟨rfl, hcyc, hq.memory, { hq.devices with mapctl := rfl }⟩
  case mikey =>
    rw [memWrite_mikey (answers h), mikeyWrite_cyc, mikeyWrite_suzy, mikeyWrite_ram]
    exact ⟨hcyc, hq.devices.suzy, hq.memory⟩
  case suzy =>
    obtain ⟨z, k, written⟩ := suzyWrite_eq notSprgo c.2 (u.cycle (.write .write ea c.2))
    rw [memWrite_suzy (answers h), written]
    exact ⟨hcyc, hq.devices.timers, hq.memory⟩

end Sys2Proof.Machine

namespace Sys2Proof.Machine

/-! ## Arithmetic, logic, compare, bit test, read-modify-write (spec/42_alu.md, spec/43): O13 to O21

A class R instruction reads its operand (`readOperand_core`, `readOperand_quiet`), then gives `A` and the flags their values,
with one idle cycle more in decimal mode. A class M instruction is reads and one bus write (`modifyMemory_eq`). What is left of
each statement is the arithmetic of its bytes. -/

variable {s t : State} {n : Nat} {i : Instr} {o : Operand} {m : MemMode} {r : Byte} {p : Flags}
variable {valid : Bool} {dec : Byte × Bool} {bin : Byte × Flags}

/-! ### Binary arithmetic (R170, R171) -/

/-- Binary add with `V` as the signed sum's overflow (R170). -/
theorem addBin_eq (a m : Byte) (p : Flags) :
    addBin a m p =
      let sum := a.toNat + m.toNat + p.c.toNat
      let signed := a.toInt + m.toInt + (p.c.toNat : Int)
      let r : Byte := BitVec.ofNat 8 sum
      (r, { p with n := r.getLsbD 7, z := decide (r = 0), c := decide (256 ≤ sum),
                   v := decide (signed < -128 ∨ 127 < signed) }) := by
  simp only [addBin, carry, add_overflow]
  rfl

/-- Adding the complement is subtracting, with the borrow the complement of the carry (R171). -/
theorem add_complement_eq_sub (a m : Byte) (c : Bool) :
    BitVec.ofNat 8 (a.toNat + (m ^^^ 0xFF).toNat + c.toNat) = a - m - BitVec.ofNat 8 (1 - c.toNat) := by
  have hm := m.isLt
  apply BitVec.eq_of_toNat_eq
  rw [(complement_values m).1]
  cases c <;> simp only [BitVec.toNat_ofNat, BitVec.toNat_sub, Bool.toNat_false, Bool.toNat_true] <;> omega

/-- The carry out of adding the complement says that there is no borrow (R171). -/
theorem carry_complement_iff (a m : Byte) (c : Bool) :
    256 ≤ a.toNat + (m ^^^ 0xFF).toNat + c.toNat ↔ m.toNat + (1 - c.toNat) ≤ a.toNat := by
  have hm := m.isLt
  rw [(complement_values m).1]
  cases c <;> simp only [Bool.toNat_false, Bool.toNat_true] <;> omega

/-- The signed sum with the complement is the signed difference (R171). -/
theorem signed_complement (a m : Byte) (c : Bool) :
    a.toInt + (m ^^^ 0xFF).toInt + (c.toNat : Int) = a.toInt - m.toInt - ((1 - c.toNat : Nat) : Int) := by
  rw [(complement_values m).2]
  cases c <;> simp only [Bool.toNat_false, Bool.toNat_true] <;> omega

/-- Binary subtract as a difference: `C` no borrow, `V` the signed difference's overflow (R171). -/
theorem subBin_eq (a m : Byte) (p : Flags) :
    subBin a m p =
      let borrow := 1 - p.c.toNat
      let signed := a.toInt - m.toInt - (borrow : Int)
      let r : Byte := a - m - BitVec.ofNat 8 borrow
      (r, { p with n := r.getLsbD 7, z := decide (r = 0), c := decide (m.toNat + borrow ≤ a.toNat),
                   v := decide (signed < -128 ∨ 127 < signed) }) := by
  simp only [subBin, addBin_eq, add_complement_eq_sub, carry_complement_iff, signed_complement]

/-- Arithmetic on `A` and the operand: the binary result with its flags, or under `D` the decimal result and carry where `valid`
says that there is one (R174, R175). -/
def arithmetic (valid : Bool) (dec : Byte × Bool) (bin : Byte × Flags) (o : Operand) (s : State) : State :=
  let u := (readOperand o (fetchOpcode s)).2
  if s.p.d then idle (decimalResult valid dec u) else binaryResult bin u

/-- Reading the operand changes neither `A` nor the flags, so `ADC` is arithmetic on the ones of the start (R174). -/
theorem exec_adc (o : Operand) (s : State) :
    exec (.adc o) s =
      .next (arithmetic (validBcd s.a && validBcd (operandValue o s)) (addDec s.a (operandValue o s) s.p.c)
        (addBin s.a (operandValue o s) s.p) o s) := by
  change Host.Outcome.next (addOperand _ _) = _
  simp only [addOperand, readOperand_p, readOperand_a, operandValue, arithmetic]

/-- So is `SBC` (R175). -/
theorem exec_sbc (o : Operand) (s : State) :
    exec (.sbc o) s =
      .next (arithmetic (validBcd s.a && validBcd (operandValue o s)) (subDec s.a (operandValue o s) s.p.c)
        (subBin s.a (operandValue o s) s.p) o s) := by
  change Host.Outcome.next (subOperand _ _) = _
  simp only [subOperand, readOperand_p, readOperand_a, operandValue, arithmetic]

/-- With `D` clear `A` and the flags are the binary result, in the cycles that reading the operand takes. -/
theorem completes_binary (hd : s.p.d = false) (hexec : exec i s = .next (arithmetic valid dec bin o s)) :
    ∃ t, exec i s = .next t ∧ t.core = { s.core with a := bin.1, pc := pcAfter s o.length, p := bin.2 } ∧
      Quiet (operandCycles o s) s t := by
  rw [arithmetic, if_neg (Bool.eq_false_iff.mp hd)] at hexec
  refine ⟨_, hexec, ?_, ((readOperand_quiet o s).setA bin.1).setP bin.2⟩
  rw [binaryResult, setP_core, setA_core, readOperand_core]

/-- Settles O13: `addBin_eq` has the flags as the statement writes them. -/
theorem adcBinaryAddsWithCarry : Obligations.AdcBinaryAddsWithCarry := by
  intro o s hd
  have completes := completes_binary hd (exec_adc o s)
  rwa [addBin_eq] at completes

/-- Settles O14: `subBin_eq` turns the sum with the complement into the difference. -/
theorem sbcBinarySubtractsWithBorrow : Obligations.SbcBinarySubtractsWithBorrow := by
  intro o s hd
  have completes := completes_binary hd (exec_sbc o s)
  rwa [subBin_eq] at completes

/-! ### Decimal arithmetic (R172, R173) -/

/-- The decimal sum is a valid BCD byte of the sum modulo 100 (R172). -/
theorem addDec_fst (a m : Byte) (c : Bool) :
    validBcd (addDec a m c).1 = true ∧
      bcdValue (addDec a m c).1 = (bcdValue a + bcdValue m + c.toNat) % 100 :=
  bcdByte_valid _ (Nat.mod_lt _ (by decide))

/-- The decimal difference is a valid BCD byte of the difference modulo 100, which is not negative (R173). -/
theorem subDec_fst (a m : Byte) (c : Bool) :
    validBcd (subDec a m c).1 = true ∧
      (bcdValue (subDec a m c).1 : Int) = ((bcdValue a : Int) - bcdValue m - (1 - (c.toNat : Int))) % 100 := by
  obtain ⟨valid, value⟩ :=
    bcdByte_valid ((((bcdValue a : Int) - bcdValue m - (1 - (c.toNat : Int))) % 100).toNat) (by omega)
  exact ⟨valid, (congrArg Nat.cast value).trans (Int.toNat_of_nonneg (Int.emod_nonneg _ (by decide)))⟩

/-- Decimal arithmetic uses one free value and is else an effect on `A` and the flags (log 8, log 9). -/
theorem Quiet.decimalResult (h : Quiet n s t) (valid : Bool) (r : Byte × Bool) :
    Quiet n s.bumpFree (decimalResult valid r t) := by
  cases valid <;> exact Quiet.bumpFree ((h.setA _).setP _)

/-- On valid operands the result and carry are the ones given, `V` is free (log 8). -/
theorem decimalResult_valid_core (r : Byte × Bool) (s : State) :
    (decimalResult true r s).core =
      { s.core with
        a := r.1
        p := { s.p with n := r.1.getLsbD 7, z := decide (r.1 = 0), c := r.2, v := Config.decimalV s.freeCtr } } := rfl

/-- On other operands `A` and the four flags are free (log 9). -/
theorem decimalResult_invalid_core (r : Byte × Bool) (s : State) :
    (decimalResult false r s).core =
      { s.core with
        a := Config.invalidBcdA s.freeCtr
        p := { s.p with
               n := Config.invalidBcdN s.freeCtr, v := Config.decimalV s.freeCtr
               z := Config.invalidBcdZ s.freeCtr, c := Config.invalidBcdC s.freeCtr } } := rfl

/-- Decimal arithmetic after the operand is read: one cycle more, one free value used (R174, R175). -/
theorem decimal_quiet (o : Operand) (s : State) (valid : Bool) (r : Byte × Bool) :
    Quiet (operandCycles o s + 1) s.bumpFree (idle (decimalResult valid r (readOperand o (fetchOpcode s)).2)) :=
  ((readOperand_quiet o s).decimalResult valid r).idle

/-- With `D` set and valid operands `A`, `N`, `Z` and `C` are from the decimal result. -/
theorem completes_decimal_valid (hd : s.p.d = true) (hvalid : valid = true)
    (hexec : exec i s = .next (arithmetic valid dec bin o s)) :
    ∃ t v, exec i s = .next t ∧
      t.core =
        { s.core with
          a := dec.1, pc := pcAfter s o.length
          p := { s.p with n := dec.1.getLsbD 7, z := decide (dec.1 = 0), c := dec.2, v := v } } ∧
      Quiet (operandCycles o s + 1) s.bumpFree t := by
  rw [arithmetic, if_pos hd, hvalid] at hexec
  have hcore := decimalResult_valid_core dec (readOperand o (fetchOpcode s)).2
  rw [readOperand_core, readOperand_p] at hcore
  exact ⟨_, _, hexec, hcore, decimal_quiet o s true dec⟩

/-- With `D` set and an operand that is not valid BCD nothing is known of `A` and the four flags. -/
theorem completes_decimal_invalid (hd : s.p.d = true) (hinvalid : valid = false)
    (hexec : exec i s = .next (arithmetic valid dec bin o s)) :
    ∃ t r n v z c, exec i s = .next t ∧
      t.core = { s.core with a := r, pc := pcAfter s o.length, p := { s.p with n := n, v := v, z := z, c := c } } ∧
      Quiet (operandCycles o s + 1) s.bumpFree t := by
  rw [arithmetic, if_pos hd, hinvalid] at hexec
  have hcore := decimalResult_invalid_core dec (readOperand o (fetchOpcode s)).2
  rw [readOperand_core, readOperand_p] at hcore
  exact ⟨_, _, _, _, _, _, hexec, hcore, decimal_quiet o s false dec⟩

/-- Settles O15: the two differ in the decimal result alone (`addDec_fst`, `subDec_fst`). -/
theorem decimalAddAndSubtractOnValidBcd : Obligations.DecimalAddAndSubtractOnValidBcd := by
  intro o s hd m ha hm sum diff
  have valid : (validBcd s.a && validBcd m) = true := by rw [ha, hm]; rfl
  obtain ⟨validSum, sumValue⟩ := addDec_fst s.a m s.p.c
  obtain ⟨validDiff, diffValue⟩ := subDec_fst s.a m s.p.c
  obtain ⟨t, v, hexec, hcore, hq⟩ := completes_decimal_valid hd valid (exec_adc o s)
  obtain ⟨t', v', hexec', hcore', hq'⟩ := completes_decimal_valid hd valid (exec_sbc o s)
  exact ⟨⟨t, _, v, hexec, validSum, sumValue, hcore, hq⟩, t', _, v', hexec', validDiff, diffValue, hcore', hq'⟩

/-- Settles O16: no more than `decimalResult_invalid_core` is known of the values. -/
theorem decimalOnInvalidBcdCompletes : Obligations.DecimalOnInvalidBcdCompletes := by
  intro o s hd invalid
  simp only [List.forall_mem_cons]
  exact ⟨completes_decimal_invalid hd invalid (exec_adc o s), completes_decimal_invalid hd invalid (exec_sbc o s),
    List.forall_mem_nil _⟩

/-! ### Logic, compare, bit test (R176 to R182) -/

/-- A logic operation: the operand, then `A` with `N Z` from it. -/
theorem completes_logic {f : Byte → Byte → Byte} (hexec : exec i s = .next (logic f o s)) :
    ∃ t, exec i s = .next t ∧
      t.core =
        { s.core with
          a := f s.a (operandValue o s), pc := pcAfter s o.length
          p := { s.p with n := (f s.a (operandValue o s)).getLsbD 7, z := decide (f s.a (operandValue o s) = 0) } } ∧
      Quiet (operandCycles o s) s t :=
  writesRegister_setA.completes_withNZ (readOperand_core o s) (readOperand_quiet o s) hexec

/-- Settles O17: the three differ in the operation alone. -/
theorem logicWritesAccumulatorAndNZ : Obligations.LogicWritesAccumulatorAndNZ := by
  intro o s
  simp only [List.forall_mem_cons]
  exact ⟨completes_logic rfl, completes_logic rfl, completes_logic rfl, List.forall_mem_nil _⟩

/-- After the operand is read, the flags alone. -/
theorem completes_withFlags (f : Flags → Flags)
    (hexec : exec i s = .next (let u := (readOperand o (fetchOpcode s)).2; u.setP (f u.p))) :
    ∃ t, exec i s = .next t ∧ t.core = { s.core with pc := pcAfter s o.length, p := f s.p } ∧
      Quiet (operandCycles o s) s t := by
  refine ⟨_, hexec, ?_, (readOperand_quiet o s).setP _⟩
  rw [setP_core, readOperand_core, readOperand_p]

/-- The flags of a compare, `Z` as equality (R179). -/
theorem compareFlags_eq (reg m : Byte) (p : Flags) :
    compareFlags reg m p =
      { p with n := (reg - m).getLsbD 7, z := decide (reg = m), c := decide (m.toNat ≤ reg.toNat) } := by
  simp only [compareFlags, Flags.setNZ, sub_eq_zero]

/-- A compare: the operand, then the three flags. -/
theorem completes_compare {reg : Byte} (hexec : exec i s = .next (compare reg o s)) :
    ∃ t, exec i s = .next t ∧
      t.core =
        { s.core with
          pc := pcAfter s o.length
          p := { s.p with
                 n := (reg - operandValue o s).getLsbD 7, z := decide (reg = operandValue o s)
                 c := decide ((operandValue o s).toNat ≤ reg.toNat) } } ∧
      Quiet (operandCycles o s) s t := by
  rw [← compareFlags_eq]
  exact completes_withFlags (compareFlags reg (operandValue o s)) hexec

/-- Settles O18: the three differ in the register alone. -/
theorem comparesWriteOnlyNZC : Obligations.ComparesWriteOnlyNZC := by
  intro o s
  simp only [List.forall_mem_cons]
  exact ⟨completes_compare rfl, completes_compare rfl, completes_compare rfl, List.forall_mem_nil _⟩

/-- Settles O19: after the operand the flags of `bitFlags`, whose two cases are the two clauses. -/
theorem bitTestsWithoutChangingA : Obligations.BitTestsWithoutChangingA := by
  intro v m s
  exact ⟨completes_withFlags (o := .imm v) (bitFlags false s.a v) rfl,
    completes_withFlags (o := .mem m) (bitFlags true s.a (operandValue (.mem m) s)) rfl⟩

/-! ### Read-modify-write (R183, R184, R200 to R206) -/

/-- `i` completes by reads and then one bus write of `r` where a class M instruction of mode `m` writes, with flags `p`. -/
def WritesBack (i : Instr) (m : MemMode) (s : State) (r : Byte) (p : Flags) : Prop :=
  ∃ u t, exec i s = .next t ∧ t = memWrite .write (modifyAddress m s) r u ∧ Quiet (writeCycles m + 1) s u ∧
    u.core = { s.core with pc := pcAfter s (1 + m.operandBytes), p := p } ∧ t.core = u.core

/-- What a class M instruction does, once (`modifyMemory_eq`): the byte and the flags are as its function says. -/
theorem writesBack_of_exec {f : Byte → Flags → Byte × Flags}
    (hexec : exec i s = .next (modifyMemory m f (fetchOpcode s))) (hf : f (modifyValue m s) s.p = (r, p)) :
    WritesBack i m s r p := by
  obtain ⟨u, written, hq, hcore⟩ := modifyMemory_eq m f s
  rw [hf] at written hcore
  exact ⟨u, _, hexec, written, hq, hcore, written ▸ memWrite_core ..⟩

/-- Settles O20: form by form, with the rotates' bytes as shifts with the carry put in. -/
theorem readModifyWriteIsOneWriteOfTheNewByte : Obligations.ReadModifyWriteIsOneWriteOfTheNewByte := by
  intro m s
  simp only [List.forall_mem_cons]
  exact ⟨writesBack_of_exec rfl rfl, writesBack_of_exec rfl rfl, writesBack_of_exec rfl (rolByte_eq _ _),
    writesBack_of_exec rfl (rorByte_eq _ _), writesBack_of_exec rfl rfl, writesBack_of_exec rfl rfl,
    writesBack_of_exec rfl rfl, writesBack_of_exec rfl rfl, List.forall_mem_nil _⟩

/-- Where RAM answers at the address, the old byte is the one in RAM: resolving the address changes none (R57). -/
theorem modifyValue_ram (h : region s.mapctl (modifyAddress m s) = .ram) :
    modifyValue m s = Memory.read s.ram (modifyAddress m s) := by
  have quiet := resolve_modify_quiet m s
  have answers : region (resolve .modify m (fetchOpcode s)).2.mapctl (modifyAddress m s) = .ram := by
    rw [quiet.devices.mapctl, h]
  exact (peek_ram answers).trans (quiet.memory _)

/-- Where RAM answers at the address, the one write changes that byte alone (R57). -/
theorem WritesBack.ram (h : WritesBack i m s r p) (hwf : Memory.wf s.ram = true)
    (hram : region s.mapctl (modifyAddress m s) = .ram) :
    modifyValue m s = Memory.read s.ram (modifyAddress m s) ∧
      ∃ t p', exec i s = .next t ∧ t.core = { s.core with pc := pcAfter s (1 + m.operandBytes), p := p' } ∧
        Frame (writeCycles m + 2) [.write .write (modifyAddress m s) r] (stored s (modifyAddress m s) r) s t := by
  obtain ⟨u, t, hexec, rfl, hq, hcu, hct⟩ := h
  exact ⟨modifyValue_ram hram, _, p, hexec, hct.trans hcu, hq.memWrite hwf .write r hram⟩

/-- Settles O21: the one write of O20, in RAM (`WritesBack.ram`). -/
theorem readModifyWriteChangesOneByteOfRam : Obligations.ReadModifyWriteChangesOneByteOfRam := by
  intro m s hwf hram
  have writes := readModifyWriteIsOneWriteOfTheNewByte m s
  simp only [List.forall_mem_cons] at writes ⊢
  obtain ⟨asl, lsr, rol, ror, inc, dec, tsb, trb, -⟩ := writes
  exact ⟨WritesBack.ram asl hwf hram, WritesBack.ram lsr hwf hram, WritesBack.ram rol hwf hram,
    WritesBack.ram ror hwf hram, WritesBack.ram inc hwf hram, WritesBack.ram dec hwf hram,
    WritesBack.ram tsb hwf hram, WritesBack.ram trb hwf hram, List.forall_mem_nil _⟩

end Sys2Proof.Machine

namespace Sys2Proof.Machine

/-! ## Index steps (R207 to R210): O23 -/

/-- What an index step does, once: an implied instruction's two reads, then the stepped byte into its register, with `N Z`. -/
theorem WritesRegister.completes_stepIndex {set : State → Byte → State} {put : CoreRegs → Byte → CoreRegs} {s : State}
    {i : Instr} {v : Byte} (hset : WritesRegister set put) (hexec : exec i s = .next (stepIndex set v s)) :
    ∃ t, exec i s = .next t ∧
      t.core = { put { s.core with pc := pcAfter s 1 } v with
        p := { (put { s.core with pc := pcAfter s 1 } v).p with n := v.getLsbD 7, z := decide (v = 0) } } ∧
      Quiet 2 s t :=
  hset.completes_withNZ (implied_fetchOpcode_core s) (implied_quiet s) hexec

/-- Settles O23: step by step, with the register each one writes (`WritesRegister.completes_stepIndex`). -/
theorem indexStepsWrapAndSetNZ : Obligations.IndexStepsWrapAndSetNZ := by
  intro s
  exact ⟨writesRegister_setX.completes_stepIndex rfl, writesRegister_setX.completes_stepIndex rfl,
    writesRegister_setY.completes_stepIndex rfl, writesRegister_setY.completes_stepIndex rfl⟩

end Sys2Proof.Machine

namespace Sys2Proof.Machine

/-! ## Control flow (spec/44_control_flow.md): O24 to O28

Each instruction is fetches and dummy reads, which are quiet, and one shared operation with a law of its own: a branch, a jump's
pointer, the push or the pull of `PC`, the return from an interrupt, the taking of an exception. -/

variable {s t : State} {n : Nat} {off : Byte} {i : Instr}

/-! ### Branches (R230 to R239) -/

/-- The cycles of a branch, as R230 counts them. -/
theorem branchCycles_eq (taken : Bool) (next : Addr) (off : Byte) :
    branchCycles taken next off = if taken then (if hiByte (relative next off) = hiByte next then 3 else 4) else 2 := by
  unfold branchCycles takenExtra
  split_ifs <;> rfl

/-- What a branch does, once (`branch_core`, `Frame.branch`): the nine differ in their condition alone. -/
theorem completes_branch {taken : Bool} (hexec : exec i s = .next (branch taken off (fetchOpcode s))) :
    ∃ t, exec i s = .next t ∧
      t.core = { s.core with pc := if taken then relative (pcAfter s 2) off else pcAfter s 2 } ∧
      Quiet (if taken then (if hiByte (relative (pcAfter s 2) off) = hiByte (pcAfter s 2) then 3 else 4) else 2) s t := by
  have quiet := (Quiet.refl s).fetchOpcode.branch taken off
  rw [fetchOpcode_pc, ← pcAfter_two] at quiet
  refine ⟨_, hexec, ?_, ?_⟩
  · rw [branch_core, fetchOpcode_pc, ← pcAfter_two, fetchOpcode_core]
  · rw [← branchCycles_eq]
    exact quiet

/-- Settles O24: branch by branch (`completes_branch`); sign extension, as `relative` has it, is by definition the word of the
offset's signed value. -/
theorem branchesTakeTheirCondition : Obligations.BranchesTakeTheirCondition := by
  intro off s
  iterate 9 refine List.forall_mem_cons.2 ⟨completes_branch rfl, ?_⟩
  exact List.forall_mem_nil _

/-! ### Jumps (R240 to R242) -/

/-- After `n` quiet cycles a jump reads its pointer in two more and goes to the word there; the reads before a byte change it
only where it is a cartridge data port. -/
theorem completes_jump_through {ptr w : Addr} (hq : Quiet n s t) (hcore : t.core = { s.core with pc := w })
    (hexec : exec i s = .next ((readPointer16 ptr t).2.setPc (readPointer16 ptr t).1)) :
    ∃ r, exec i s = .next r ∧ (∃ pc', r.core = { s.core with pc := pc' }) ∧ Quiet (n + 2) s r ∧
      (isPort s.mapctl ptr = false → isPort s.mapctl (ptr + 1) = false →
        r.pc = pair (peek s (ptr + 1)) (peek s ptr)) := by
  refine ⟨_, hexec, ⟨(readPointer16 ptr t).1, ?_⟩, (hq.readPointer16 ptr).setPc _, fun plain plain' => ?_⟩
  · rw [setPc_core, readPointer16_core, hcore]
  · have second : isPort t.mapctl (ptr + 1) = false := hq.devices.mapctl ▸ plain'
    rw [State.setPc_pc, readPointer16_fst second, hq.peek plain' rfl, hq.peek plain rfl]

/-- Settles O25: the operand fetches, for `JMP (a,X)` an idle cycle, then the pointer (`completes_jump_through`). -/
theorem jumpsGoToTheirTarget : Obligations.JumpsGoToTheirTarget := by
  intro w s
  have fetched : Quiet 3 s (fetchOperand (fetchOperand (fetchOpcode s))) :=
    (Quiet.refl s).fetchOpcode.fetchOperand.fetchOperand
  have hcore : (fetchOperand (fetchOperand (fetchOpcode s))).core = { s.core with pc := pcAfter s 3 } := by
    simp [pcAfter_three]
  have index : indexed w (fetchOpcode s).x = w + s.x.setWidth 16 := by rw [fetchOpcode_x, indexed]
  refine ⟨⟨_, rfl, ?_, fetched.setPc w⟩, completes_jump_through fetched hcore rfl, ?_⟩
  · simp [resolveJump]
  · rw [← index]
    exact completes_jump_through fetched.idle hcore rfl

/-! ### `JSR` and `RTS` (R243, R244) -/

theorem callFrame_core (s : State) : (callFrame s).core = { s.core with sp := s.sp - 2 } := by
  have two : s.sp - 1 - 1 = s.sp - 2 := by bv_omega
  rw [callFrame, pushPc, push_core, push_core, push_sp, dummyRead, afterRead_core, afterRead_sp, two]

/-- Between its two operand fetches `JSR` reads once and pushes `PC`, the high byte at the higher address (R243). -/
theorem Quiet.callFrame (hq : Quiet n s t) (hwf : Memory.wf s.ram = true) (hsp : t.sp = s.sp) :
    Frame (n + 3)
      [.write .stackWrite (stackAddr (s.sp - 1)) (loByte t.pc), .write .stackWrite (stackAddr s.sp) (hiByte t.pc)]
      (fun a =>
        if a = stackAddr (s.sp - 1) then loByte t.pc
        else if a = stackAddr s.sp then hiByte t.pc
        else Memory.read s.ram a) s (callFrame t) := by
  have frame := ((hq.afterRead .dummyRead (stackAddr t.sp)).push hwf (hiByte t.pc)).push hwf (loByte t.pc)
  rw [push_sp, afterRead_sp, hsp] at frame
  rw [Machine.callFrame, pushPc, dummyRead, afterRead_pc, hsp]
  exact frame

/-- What `RTS` and `RTI` do before they pull (R244, R245): the implied mode's dummy read, then one at the stack pointer. -/
def beforePulls (s : State) : State := dummyRead (stackAddr (implied (fetchOpcode s)).sp) (implied (fetchOpcode s))

/-- The core moves `PC` alone before the pulls. -/
theorem beforePulls_core (s : State) : (beforePulls s).core = { s.core with pc := pcAfter s 1 } := by
  simp [beforePulls, dummyRead, pcAfter]

@[simp] theorem beforePulls_sp (s : State) : (beforePulls s).sp = s.sp := congrArg CoreRegs.sp (beforePulls_core s)

@[simp] theorem beforePulls_ram (s : State) : (beforePulls s).ram = s.ram := by
  simp [beforePulls, implied, dummyRead]

theorem beforePulls_quiet (s : State) : Quiet 3 s (beforePulls s) := (implied_quiet s).afterRead _ _

theorem exec_rts (s : State) :
    exec .rts s =
      .next ((dummyRead (pullPc (beforePulls s)).pc (pullPc (beforePulls s))).setPc ((pullPc (beforePulls s)).pc + 1)) := rfl

theorem exec_rti (s : State) : exec .rti s = .next (returnFromInterrupt (beforePulls s)) := rfl

/-- Settles O26: `JSR` pushes before its last fetch, so the pushed address is that of its last byte (`Quiet.callFrame`); `RTS`
goes one past the word that `pullPc_core` finds. -/
theorem callAndReturnUseTheStack : Obligations.CallAndReturnUseTheStack := by
  refine fun w s => ⟨fun hwf => ⟨_, rfl, ?_, ?_⟩, _, exec_rts s, ?_, ((beforePulls_quiet s).pullPc.afterRead _ _).setPc _⟩
  · simp [callFrame_core]
  · have fetched : Quiet 2 s (fetchOperand (fetchOpcode s)) := (Quiet.refl s).fetchOpcode.fetchOperand
    have called := fetched.callFrame hwf (by simp)
    rw [fetchOperand_pc, fetchOpcode_pc, ← pcAfter_two] at called
    exact called.fetchOperand.setPc w
  · have two : s.sp + 1 + 1 = s.sp + 2 := by bv_omega
    have pulled := pullPc_core (beforePulls s)
    rw [beforePulls_core, beforePulls_sp, beforePulls_ram, two] at pulled
    rw [setPc_core, dummyRead, afterRead_core, ← core_pc, pulled]

/-! ### `RTI` and `BRK` (R245, R246, R322, R323) -/

/-- Settles O27: the return itself is `returnFromInterrupt_core`; `Flags.setStatus` takes the six bits. -/
theorem rtiRestoresFlagsAndPc : Obligations.RtiRestoresFlagsAndPc := by
  intro s
  have two : s.sp + 1 + 1 = s.sp + 2 := by bv_omega
  have three : s.sp + 2 + 1 = s.sp + 3 := by bv_omega
  refine ⟨_, exec_rti s, ?_, (beforePulls_quiet s).returnFromInterrupt⟩
  rw [returnFromInterrupt_core, beforePulls_core, beforePulls_sp, beforePulls_ram, two, three]
  rfl

/-- Settles O28: `BRK` is the exception of `exec_brk_takes`, taken after the fetch of its two bytes. -/
theorem brkTakesTheIrqVectorWithBSet : Obligations.BrkTakesTheIrqVectorWithBSet := by
  intro sig s hwf
  rw [pcAfter_two]
  exact exec_brk_takes s hwf sig

end Sys2Proof.Machine

namespace Sys2Proof

/-! ## Flags, no-operation, wait, stop, undefined opcodes (spec/45_flags_system.md): O30 to O33, O40

An implied instruction is two reads (`implied_quiet`) and then its own effect. An undefined opcode is one shared meaning,
`undefinedOpcode`, which strict mode alone decides. Which steps fail then follows from two facts: only the undefined forms ask
strict mode, and the decoder answers an undefined form at the undefined opcode bytes of R85 and nowhere else. -/

/-- The instruction is an undefined opcode, of whatever length (R85). -/
def Instr.isUndefinedForm : Instr → Bool
  | .nop1 _ | .nop2 _ _ | .nop3 _ _ => true
  | _ => false

/-- The decoder's undefined forms stand at the undefined opcode bytes of R85, and only there. -/
theorem isUndefinedForm_decodeOp (bitops : Bool) (op lo hi : Byte) :
    (decodeOp bitops op lo hi).isUndefinedForm = isUndefined bitops op := by
  have closed : ∀ bitops op, (decodeOp bitops op 0 0).isUndefinedForm = isUndefined bitops op := by decide
  rw [← closed bitops op]
  refine decodeOp_congr Instr.isUndefinedForm fun r => ?_
  unfold opcodeRow
  cases bitops <;> split <;> rfl

end Sys2Proof

namespace Sys2Proof.Machine

variable {s t : State} {i : Instr} {op : Byte} {k n : Nat} {f : Fault}

/-! ### Flags, `NOP`, `WAI`, `STP` (R260 to R269) -/

/-- What a flag instruction does, once: an implied instruction's two reads, then the flags as its function says. -/
theorem completes_changeFlags {g : Flags → Flags} {p : Flags} (hexec : exec i s = .next (changeFlags g s)) (hg : g s.p = p) :
    ∃ t, exec i s = .next t ∧ t.core = { s.core with p := p, pc := pcAfter s 1 } ∧ Quiet 2 s t := by
  have flags : (implied (fetchOpcode s)).p = s.p := congrArg CoreRegs.p (implied_fetchOpcode_core s)
  refine ⟨_, hexec, ?_, (implied_quiet s).setP _⟩
  rw [changeFlags, setP_core, implied_fetchOpcode_core, flags, hg]

/-- Settles O30: the seven flag instructions differ in the flag alone; `NOP` is the two reads. -/
theorem flagInstructionsChangeOneFlag : Obligations.FlagInstructionsChangeOneFlag := by
  intro s
  simp only [List.forall_mem_cons]
  exact ⟨completes_changeFlags rfl rfl, completes_changeFlags rfl rfl, completes_changeFlags rfl rfl,
    completes_changeFlags rfl rfl, completes_changeFlags rfl rfl, completes_changeFlags rfl rfl, completes_changeFlags rfl rfl,
    ⟨_, rfl, implied_fetchOpcode_core s, implied_quiet s⟩, List.forall_mem_nil _⟩

/-- What `WAI` and `STP` do, once: an implied instruction's two reads and an idle cycle, then `RUN`. -/
theorem completes_halt (r : RunState) (hexec : exec i s = .next (halt r s)) :
    ∃ t, exec i s = .next t ∧ t.core = { s.core with run := r, pc := pcAfter s 1 } ∧ Quiet 3 s t := by
  refine ⟨_, hexec, ?_, (implied_quiet s).idle.setRun r⟩
  rw [halt, setRun_core, idle_core, implied_fetchOpcode_core]

/-- Settles O31: the two differ in the run state alone. -/
theorem waitAndStopChangeRun : Obligations.WaitAndStopChangeRun := by
  intro s
  exact ⟨completes_halt .waitingForInterrupt rfl, completes_halt .stopped rfl⟩

/-! ### Undefined opcodes (R270 to R273) -/

/-- Any number of operand fetches. -/
theorem Frame.fetchOperands {ws : List BusEvent} {mem : Addr → Byte} (h : Frame n ws mem s t) (k : Nat) :
    Frame (n + k) ws mem s (Machine.fetchOperand^[k] t) := by
  induction k with
  | zero => exact h
  | succ k ih =>
    rw [Function.iterate_succ_apply']
    exact ih.fetchOperand

theorem fetchOperands_core (k : Nat) (s : State) : (fetchOperand^[k] s).core = { s.core with pc := pcAfter s k } := by
  induction k with
  | zero => simp [pcAfter, State.core]
  | succ k ih =>
    have pc : (fetchOperand^[k] s).pc = pcAfter s k := congrArg CoreRegs.pc ih
    rw [Function.iterate_succ_apply', fetchOperand_core, ih, pc]
    simp [pcAfter, BitVec.ofNat_add, BitVec.add_assoc]

/-- Outside strict mode the operand bytes are fetched and the extra cycles spent. -/
theorem undefinedOpcode_lenient (h : s.params.strictUndefined = false) (op : Byte) (k : Nat) :
    undefinedOpcode op k s = .next (idle^[undefExtra s op] (fetchOperand^[k] (fetchOpcode s))) := by
  simp [undefinedOpcode, h]

/-- In strict mode the opcode fetch is all there is. -/
theorem undefinedOpcode_strict (h : s.params.strictUndefined = true) (op : Byte) (k : Nat) :
    undefinedOpcode op k s = .fault (.unknownOpcode op (fetchOpcode s)) := by
  simp [undefinedOpcode, h]

/-- An undefined opcode with `k` operand bytes, outside strict mode. -/
theorem completes_undefined (h : s.params.strictUndefined = false) (hexec : exec i s = undefinedOpcode op k s) :
    ∃ t, exec i s = .next t ∧ t.core = { s.core with pc := pcAfter s (1 + k) } ∧ Quiet (1 + k + undefExtra s op) s t := by
  refine ⟨_, hexec.trans (undefinedOpcode_lenient h op k), ?_, ((Quiet.refl s).fetchOpcode.fetchOperands k).idles _⟩
  rw [idles_core, fetchOperands_core, fetchOpcode_core]
  simp [pcAfter, BitVec.ofNat_add, BitVec.add_assoc]

/-- Settles O32: the three forms differ in the number of operand bytes alone. -/
theorem undefinedOpcodesAreNopsOfTheirLength : Obligations.UndefinedOpcodesAreNopsOfTheirLength := by
  intro op b1 w s h
  exact ⟨completes_undefined (k := 0) h rfl, completes_undefined (k := 1) h rfl, completes_undefined (k := 2) h rfl⟩

/-- The state a failing step leaves (R273): the opcode is fetched. -/
theorem fails_undefined (h : s.params.strictUndefined = true) (hexec : exec i s = undefinedOpcode op k s) :
    ∃ left, exec i s = .fault (.unknownOpcode op left) ∧ left.core = { s.core with pc := s.pc + 1 } ∧ Quiet 1 s left :=
  ⟨_, hexec.trans (undefinedOpcode_strict h op k), fetchOpcode_core s, (Quiet.refl s).fetchOpcode⟩

/-- Settles O33: the operand bytes play no part. -/
theorem strictModeFailsOnUndefinedOpcodes : Obligations.StrictModeFailsOnUndefinedOpcodes := by
  intro op b1 w s h
  simp only [List.forall_mem_cons]
  exact ⟨fails_undefined h rfl, fails_undefined h rfl, fails_undefined h rfl, List.forall_mem_nil _⟩

/-! ### Which steps fail (R330, R332) -/

theorem undefinedOpcode_fault_iff :
    undefinedOpcode op k s = .fault f ↔ s.params.strictUndefined = true ∧ f = .unknownOpcode op (fetchOpcode s) := by
  by_cases h : s.params.strictUndefined = true
  · rw [undefinedOpcode_strict h, Host.Outcome.fault.injEq]
    exact ⟨fun e => ⟨h, e.symm⟩, fun e => e.2.symm⟩
  · rw [undefinedOpcode_lenient (Bool.eq_false_iff.2 h)]
    exact ⟨fun e => (nomatch e), fun e => absurd e.1 h⟩

/-- THE FAULTS OF AN INSTRUCTION: an undefined form in strict mode, with its own opcode byte, after the opcode fetch. -/
theorem exec_fault_iff (hop : i.opcode = some op) :
    exec i s = .fault f ↔
      s.params.strictUndefined = true ∧ i.isUndefinedForm = true ∧ f = .unknownOpcode op (fetchOpcode s) := by
  cases i with
  | nop1 _ | nop2 _ _ | nop3 _ _ =>
    cases hop
    exact undefinedOpcode_fault_iff.trans (and_congr_right fun _ => (and_iff_right rfl).symm)
  | _ => exact ⟨fun h => (nomatch h), fun h => (nomatch h.2.1)⟩

/-- No instruction is refused. -/
theorem exec_ne_refused (i : Instr) (s : State) (r : Refusal) : exec i s ≠ .refused r := by
  obtain ⟨t, h⟩ | ⟨op, -, h⟩ := exec_next_or_strict i s <;> rw [h] <;> exact nofun

/-- A step passes on the fault of the instruction it executes, and has no other. -/
theorem step_fault_iff_exec : step s = .fault f ↔ Executes s ∧ exec (instrAt (beginStep s)) (beginStep s) = .fault f := by
  rw [show Executes s ↔ boundary (beginStep s) = .execute from executes_iff_boundary (beginStep s)]
  unfold step
  cases boundary (beginStep s) with
  | done t => simp
  | execute => cases exec (instrAt (beginStep s)) (beginStep s) <;> simp

theorem step_ne_refused (s : State) (r : Refusal) : step s ≠ .refused r := by
  have never := exec_ne_refused (instrAt (beginStep s)) (beginStep s)
  unfold step
  cases boundary (beginStep s) with
  | done t => exact nofun
  | execute =>
    cases h : exec (instrAt (beginStep s)) (beginStep s) with
    | next t => exact nofun
    | fault f => exact nofun
    | refused r' => exact absurd h (never r')

/-- THE FAULTS OF A STEP: the byte at `PC` alone decides, whatever the operand bytes. -/
theorem step_fault_iff :
    step s = .fault f ↔
      Executes s ∧ s.params.strictUndefined = true ∧ isUndefined s.params.bitops (peek s s.pc) = true ∧
        f = .unknownOpcode (peek s s.pc) (fetchOpcode (beginStep s)) := by
  have hop : (instrAt (beginStep s)).opcode = some (peek s s.pc) := opcode_decodeOp _ _ _ _
  have form : (instrAt (beginStep s)).isUndefinedForm = isUndefined s.params.bitops (peek s s.pc) :=
    isUndefinedForm_decodeOp _ _ _ _
  rw [step_fault_iff_exec, exec_fault_iff hop, form]
  rfl

/-- Settles O40: `step_ne_refused`, then `step_fault_iff`. -/
theorem onlyStrictUndefinedOpcodesFail : Obligations.OnlyStrictUndefinedOpcodesFail := by
  refine fun s => ⟨step_ne_refused s, ⟨?_, ?_⟩, fun f h => ?_⟩
  · rintro ⟨f, h⟩
    obtain ⟨executes, strict, undefined, -⟩ := step_fault_iff.1 h
    exact ⟨executes, strict, undefined⟩
  · rintro ⟨executes, strict, undefined⟩
    exact ⟨_, step_fault_iff.2 ⟨executes, strict, undefined, rfl⟩⟩
  · obtain ⟨-, -, -, rfl⟩ := step_fault_iff.1 h
    exact ⟨_, rfl, fetchOpcode_core (beginStep s), (Quiet.refl (beginStep s)).fetchOpcode⟩

end Sys2Proof.Machine

namespace Sys2Proof.Machine

/-! ## Bit instructions (spec/46_bitops_optional.md): O34, O35

`RMBn` and `SMBn` are a read-modify-write (O20, O21) in page 0, which is RAM under every `MAPCTL` (R51); `BBRn` and `BBSn` are four
reads and a branch. -/

variable {s : State} {i : Instr} {z off : Byte} {n : Nat} {b want taken : Bool} {f : Byte → Flags → Byte × Flags}

/-! ### `RMBn`, `SMBn` (R281, R282) -/

/-- `f` gives bit `n` of a byte the value `b` and leaves the other bits and the flags. -/
def WritesBit (f : Byte → Flags → Byte × Flags) (n : Nat) (b : Bool) : Prop :=
  ∀ (m : Byte) (p : Flags), (∀ k < 8, (f m p).1.getLsbD k = if k = n then b else m.getLsbD k) ∧ (f m p).2 = p

/-- Bit `k` of the mask `1 << n` (R281). -/
theorem getLsbD_one_shiftLeft {k : Nat} (hk : k < 8) (n : Nat) : ((1 : Byte) <<< n).getLsbD k = decide (k = n) := by
  have twoPow : ((1 : Byte) <<< n).getLsbD k = (decide (n < 8) && decide (n = k)) := BitVec.getLsbD_twoPow n k
  rw [twoPow, ← Bool.decide_and, decide_eq_decide]
  omega

theorem writesBit_rmbByte (n : Nat) : WritesBit (rmbByte n) n false := by
  refine fun m p => ⟨fun k hk => ?_, rfl⟩
  simp only [rmbByte, BitVec.getLsbD_and, BitVec.getLsbD_not, getLsbD_one_shiftLeft hk, hk]
  by_cases h : k = n <;> simp [h]

theorem writesBit_smbByte (n : Nat) : WritesBit (smbByte n) n true := by
  refine fun m p => ⟨fun k hk => ?_, rfl⟩
  simp only [smbByte, BitVec.getLsbD_or, getLsbD_one_shiftLeft hk]
  by_cases h : k = n <;> simp [h]

/-- What a bit write does, once: one write back (`writesBack_of_exec`), of a byte that differs from the old one in its bit. -/
theorem WritesBit.completes (hf : WritesBit f n b) (hwf : Memory.wf s.ram = true)
    (hexec : exec i s = .next (modifyBit f z s)) :
    ∃ t r, exec i s = .next t ∧
      (∀ k < 8, r.getLsbD k = if k = n then b else (Memory.read s.ram (zeroPage z)).getLsbD k) ∧
      t.core = { s.core with pc := pcAfter s 2 } ∧ Frame 5 [.write .write (zeroPage z) r] (stored s (zeroPage z) r) s t := by
  obtain ⟨hbits, hflags⟩ := hf (Memory.read s.ram (zeroPage z)) s.p
  have old : modifyValue (.zp z) s = Memory.read s.ram (zeroPage z) := modifyValue_ram (region_zeroPage _ _)
  have new : f (modifyValue (.zp z) s) s.p = ((f (Memory.read s.ram (zeroPage z)) s.p).1, s.p) := by
    rw [old]; exact Prod.ext rfl hflags
  obtain ⟨u, t, hnext, rfl, hquiet, hu, ht⟩ := writesBack_of_exec hexec new
  exact ⟨_, _, hnext, hbits, ht.trans hu, hquiet.memWrite hwf .write _ (region_zeroPage _ _)⟩

/-- Settles O34: the eight `RMB`, then the eight `SMB` (`WritesBit.completes`). -/
theorem bitInstructionsWriteOneBitOfPageZero : Obligations.BitInstructionsWriteOneBitOfPageZero := by
  intro z s hwf
  iterate 8 refine List.forall_mem_cons.2 ⟨(writesBit_rmbByte _).completes hwf rfl, ?_⟩
  iterate 8 refine List.forall_mem_cons.2 ⟨(writesBit_smbByte _).completes hwf rfl, ?_⟩
  exact List.forall_mem_nil _

/-! ### `BBRn`, `BBSn` (R283, R284) -/

/-- A bit branch: the opcode, the address byte, the byte of page 0 twice, then a branch on its bit. -/
theorem branchOnBit_eq (n : Nat) (want : Bool) (z off : Byte) (s : State) :
    ∃ u, branchOnBit n want z off s = branch (zeroPageBit n z s == want) off u ∧ Quiet 4 s u ∧
      u.core = { s.core with pc := pcAfter s 2 } := by
  have fetched := (Quiet.refl s).fetchOpcode.fetchOperand
  refine ⟨_, ?_, (fetched.afterRead .read (zeroPage z)).afterRead .dummyRead (zeroPage z), ?_⟩
  · simp [branchOnBit, memRead, dummyRead, zeroPageBit]
  · simp [pcAfter_two]

/-- The cycles of a bit branch, as R283 counts them. -/
theorem bitBranchCycles_eq (taken : Bool) (next : Addr) (off : Byte) :
    bitBranchCycles taken next off = if taken then (if hiByte (relative next off) = hiByte next then 6 else 7) else 5 := by
  unfold bitBranchCycles takenExtra
  split_ifs <;> rfl

/-- What a bit branch does, once (`branch_core`, `Frame.branch`): the sixteen differ in their condition alone. -/
theorem completes_branchOnBit (hexec : exec i s = .next (branchOnBit n want z off s))
    (hcond : (zeroPageBit n z s == want) = taken) :
    ∃ t, exec i s = .next t ∧
      t.core = { s.core with pc := if taken then relative (pcAfter s 3) off else pcAfter s 3 } ∧
      Quiet (if taken then (if hiByte (relative (pcAfter s 3) off) = hiByte (pcAfter s 3) then 6 else 7) else 5) s t := by
  obtain ⟨u, hu, hquiet, hcore⟩ := branchOnBit_eq n want z off s
  have nextPc : u.pc + 1 = pcAfter s 3 := by rw [← core_pc, hcore, pcAfter_two, pcAfter_three]
  have branched := hquiet.branch taken off
  rw [hu, hcond] at hexec
  refine ⟨_, hexec, ?_, ?_⟩
  · rw [branch_core, nextPc, hcore]
  · rw [nextPc] at branched
    rw [← bitBranchCycles_eq]
    exact branched

/-- Settles O35: `BBR` branches on the bit's being false, its negation, and `BBS` on its being true, the bit itself. -/
theorem bitBranchesTestPageZero : Obligations.BitBranchesTestPageZero := by
  intro z off s
  iterate 8 refine List.forall_mem_cons.2 ⟨completes_branchOnBit rfl (beq_false _), ?_⟩
  iterate 8 refine List.forall_mem_cons.2 ⟨completes_branchOnBit rfl (beq_true _), ?_⟩
  exact List.forall_mem_nil _

end Sys2Proof.Machine

namespace Sys2Proof.Machine

/-! ## Interrupts undone, waiting, reset: O29, O37, O47

What `RTI` pulls is what the entry's frame says stands on the stack. `reset()` is written out once as the state it leaves
(`hostReset_eq`); what it lists is read off that state. -/

variable {s t : State}

/-! ### `RTI` after an entry (R320, R323) -/

/-- An `RTI`, from wherever it stands, after an exception that returns to `s.pc`: the three bytes pulled are the three pushed, so
the core is as before the exception. -/
theorem TakesException.rti_core {n : Nat} {b : Bool} {vec : Addr} (h : TakesException n b s.pc vec s t) (k : Addr) :
    ∃ r, exec .rti { t with pc := k } = .next r ∧ r.core = s.core := by
  obtain ⟨hcore, frame⟩ := h
  have hsp : t.sp = s.sp - 3 := congrArg CoreRegs.sp hcore
  have status : s.sp - 3 + 1 = s.sp - 2 := by bv_omega
  have low : s.sp - 2 + 1 = s.sp - 1 := by bv_omega
  have high : s.sp - 1 + 1 = s.sp := by bv_omega
  have moved : ({ t with pc := k } : State).core = { t.core with pc := k } := rfl
  have flags : Flags.setStatus (statusBits b s.p) = s.p := (statusByte_bits b s.p).2
  have ne1 : s.sp - 1 ≠ s.sp - 2 := by bv_omega
  have ne2 : s.sp ≠ s.sp - 2 := by bv_omega
  have ne3 : s.sp ≠ s.sp - 1 := by bv_omega
  refine ⟨_, exec_rti _, ?_⟩
  rw [returnFromInterrupt_core, beforePulls_core, beforePulls_sp, beforePulls_ram, moved, hcore, hsp]
  simp only [status, low, high, frame.memory, stackAddr_inj, ne1, ne2, ne3, if_true, if_false, pair_hi_lo, flags]
  rfl

/-- Settles O29: the entry taken, of the NMI or of the IRQ (`boundary_done`), returns to `PC` (`interruptEntry_spec`). -/
theorem rtiUndoesAnInterruptEntry : Obligations.RtiUndoesAnInterruptEntry := by
  intro s t hwf hrun hb
  obtain ⟨-, rfl⟩ | rfl := boundary_done hrun hb
  · exact (interruptEntry_spec (s := { s with nmiPending := false }) hwf (.inl rfl)).rti_core
  · exact (interruptEntry_spec hwf (.inr rfl)).rti_core

/-! ### Reset (R401, R402, R403) -/

/-- Any number of idle cycles, each of them recorded. -/
theorem idles_eq (k : Nat) (s : State) :
    idle^[k] s = { s with cyc := s.cyc + k, bus := List.replicate k .idle ++ s.bus } := by
  induction k with
  | zero => rfl
  | succ k ih =>
    rw [Function.iterate_succ_apply', ih]
    rfl

/-- A read that is not of a data port is one recorded cycle (R58). -/
theorem afterRead_plain {a : Addr} (k : ReadKind) (h : isPort s.mapctl a = false) :
    afterRead k a s = s.cycle (.read k a (peek s a)) := by
  rw [afterRead, readEffect_eq, State.cycle_mapctl, h]
  rfl

/-- With every overlay visible the reset vector is read from the ROM's last bytes but two, the low byte first (R51, R321). -/
theorem loadVector_reset (hm : s.mapctl = 0x00) :
    loadVector resetVector s =
      { s with
        pc := pair (s.rom 0x1FD) (s.rom 0x1FC), cyc := s.cyc + 2
        bus := [.read .vectorRead 0xFFFD (s.rom 0x1FD), .read .vectorRead 0xFFFC (s.rom 0x1FC)] ++ s.bus } := by
  have read : ∀ (u : State) (a : Addr) (off : Nat), u.mapctl = 0x00 → region 0x00 a = .rom off → isPort 0x00 a = false →
      memRead .vectorRead a u = (u.rom off, u.cycle (.read .vectorRead a (u.rom off))) := by
    intro u a off hu rom plain
    have value : peek u a = u.rom off := by rw [peek, hu, rom]
    rw [memRead, afterRead_plain _ (hu ▸ plain), value]
  rw [loadVector, read s resetVector 0x1FC hm (by decide) (by decide)]
  dsimp only
  rw [read (s.cycle _) (resetVector + 1) 0x1FD hm (by decide) (by decide)]
  rfl

/-- With nothing pending the IRQ line is not asserted (R347). -/
theorem recomputeIrq_of_nothing_pending (h : s.pending = 0) : recomputeIrq s = { s with irqLine := false } := by
  have line : s.irqAsserted = false := by
    simp [State.irqAsserted, h]
  rw [recomputeIrq, line]
  rfl

/-- The last line of `reset()`: every period starts now. -/
theorem stampLast_afterReset {c : Nat} (ht : s.timers = Vector.replicate 8 (Timer.afterReset c))
    (hc : s.audio.channels = Vector.replicate 4 (Channel.afterReset c)) :
    stampLast s =
      { s with
        timers := Vector.replicate 8 (Timer.afterReset s.cyc)
        audio := { s.audio with channels := Vector.replicate 4 (Channel.afterReset s.cyc) } } := by
  simp only [stampLast, List.foldl_cons, List.foldl_nil, State.setTimer, State.setChannel, ht, hc]
  rfl

/-- The cycle at which `reset()` ends: `RESET_CYCLES` on, the two vector reads at least. -/
def resetEnd (s : State) : Nat := s.cyc + (s.params.resetCycles - 2) + 2

/-- WHAT `reset()` LEAVES, once (R401, R402, R403): the devices of `deviceReset` with their periods starting as it ends, and the
core with `S` as given at the ROM's reset vector. -/
theorem hostReset_eq (resetS : Byte) (s : State) :
    hostReset resetS s =
      { deviceReset { s with cyc := resetEnd s } with
        sp := resetS, pc := pair (s.rom 0x1FD) (s.rom 0x1FC), p := { s.p with i := true, d := false }, run := .running
        mapctl := 0x00, nmiPending := false, irqLine := false
        bus :=
          [.read .vectorRead 0xFFFD (s.rom 0x1FD), .read .vectorRead 0xFFFC (s.rom 0x1FC)]
            ++ List.replicate (s.params.resetCycles - 2) .idle } := by
  unfold hostReset
  dsimp only
  rw [idles_eq, loadVector_reset rfl, recomputeIrq_of_nothing_pending rfl, stampLast_afterReset rfl rfl]
  simp only [deviceReset, beginStep, resetEnd, State.rom, List.append_nil]

/-- Settles O47: field by field of `hostReset_eq`. -/
theorem resetDoesWhatItsRuleLists : Obligations.ResetDoesWhatItsRuleLists := by
  intro resetS s h
  have ends : resetEnd s = s.cyc + s.params.resetCycles := by
    unfold resetEnd
    omega
  rw [hostReset_eq, ends]
  exact ⟨rfl, rfl, rfl, rfl, rfl, rfl, rfl, rfl, rfl, rfl, fun _ => Vector.getElem_replicate _,
    fun _ => Vector.getElem_replicate _, rfl, rfl, rfl, rfl, rfl, rfl⟩

/-! ### Waiting and stopped (R301, R325, R326, R339) -/

theorem boundary_stopped (hrun : s.run = .stopped) : boundary s = .done (idle s) := by rw [boundary, hrun]

theorem boundary_waiting (hrun : s.run = .waitingForInterrupt) :
    boundary s = .done ((idle s).setRun (if s.nmiPending || s.irqLine then .running else .waitingForInterrupt)) := by
  have asleep : (idle s).setRun .waitingForInterrupt = idle s := by rw [← hrun]; rfl
  rw [boundary, hrun]
  cases s.nmiPending || s.irqLine
  · exact congrArg Boundary.done asleep.symm
  · rfl

/-- Settles O37: the boundary's one idle cycle, and the tick after it, which leaves the core alone (`platformTick_ticked`). -/
theorem waitingAndStoppedSteps : Obligations.WaitingAndStoppedSteps := by
  refine fun s => ⟨fun hrun => ?_, fun hrun => ?_, fun resetS => by rw [hostReset_eq]⟩
  · have tick := platformTick_ticked (idle (beginStep s))
    exact ⟨_, step_of_boundary_done (boundary_stopped hrun), tick.core, tick.cyc, tick.ram, tick.nmiPending⟩
  · have tick := platformTick_ticked
      ((idle (beginStep s)).setRun (if s.nmiPending || s.irqLine then .running else .waitingForInterrupt))
    exact ⟨_, step_of_boundary_done (boundary_waiting hrun), tick.core, tick.cyc, tick.ram, tick.nmiPending⟩

end Sys2Proof.Machine

namespace Sys2Proof.Machine

/-! ## The EEPROM and the host's inputs: O60, O45

What a clock edge may do to the cells is said once (`Programs`): the safety of the write enable and the EEPROM's part of the
invariant are both read off it. The rest of the invariant after a reset is read off `hostReset_eq`. -/

variable {s : State} {e f g : Eeprom}

/-! ### What is clocked into the EEPROM (R381) -/

/-- What programming `f` out of `e` can do: the chip stays, its cells stay canonical, and with writes disabled they stay as they
are. -/
structure Programs (e f : Eeprom) : Prop where
  chip : f.chip = e.chip
  canonical : Cells.wfFrom erased e.chip.words 0 e.cells = true → Cells.wfFrom erased f.chip.words 0 f.cells = true
  kept : e.writeEnabled = false → f.cells = e.cells

theorem Programs.refl (e : Eeprom) : Programs e e := ⟨rfl, id, fun _ => rfl⟩

/-- A change of the protocol's position only, before or after, does no programming of its own. -/
theorem Programs.congr {e' f' : Eeprom} (h : Programs e f) (fchip : f'.chip = f.chip) (fcells : f'.cells = f.cells)
    (echip : e.chip = e'.chip) (ecells : e.cells = e'.cells) (enabled : e.writeEnabled = e'.writeEnabled) :
    Programs e' f' := by
  obtain ⟨hchip, hcanonical, hkept⟩ := h
  rw [echip, ecells] at hcanonical
  rw [ecells, enabled] at hkept
  refine ⟨by rw [fchip, hchip, echip], ?_, by rwa [fcells]⟩
  rwa [fchip, fcells]

theorem Eeprom.store_programs (e : Eeprom) (a : Nat) (v : BitVec 16) :
    Programs e (e.store a v) ∧ (e.store a v).writeEnabled = e.writeEnabled := by
  unfold Eeprom.store
  split
  · next h => exact ⟨⟨rfl, fun hwf => Cells.write_wf hwf (Nat.zero_le _) h.2, fun off => by simp [off] at h⟩, rfl⟩
  · exact ⟨Programs.refl e, rfl⟩

theorem Programs.trans (h : Programs e f) (enabled : f.writeEnabled = e.writeEnabled) (k : Programs f g) : Programs e g :=
  ⟨k.chip.trans h.chip, k.canonical ∘ h.canonical, fun off => (k.kept (enabled.trans off)).trans (h.kept off)⟩

theorem Eeprom.storeAll_programs (e : Eeprom) (v : BitVec 16) : Programs e (e.storeAll v) := by
  have keep := List.foldlRecOn (motive := fun f : Eeprom => Programs e f ∧ f.writeEnabled = e.writeEnabled)
    (List.range e.chip.words) (fun f a => f.store a v) ⟨Programs.refl e, rfl⟩
    fun f ⟨hf, enabled⟩ a _ =>
      ⟨hf.trans enabled (f.store_programs a v).1, (f.store_programs a v).2.trans enabled⟩
  exact keep.1

/-- The end of the address phase programs by `ERASE` and `ERAL` only. -/
theorem Eeprom.dispatch_programs (e : Eeprom) : Programs e e.dispatch := by
  have position : ∀ f : Eeprom, f.chip = e.chip → f.cells = e.cells → Programs e f := fun f hchip hcells =>
    (Programs.refl e).congr hchip hcells rfl rfl rfl
  unfold Eeprom.dispatch
  split_ifs
  · exact position _ rfl rfl
  · exact position _ rfl rfl
  · exact (e.store_programs _ _).1.congr rfl rfl rfl rfl rfl
  · exact position _ rfl rfl
  · exact position _ rfl rfl
  · exact position _ rfl rfl
  · exact (e.storeAll_programs _).congr rfl rfl rfl rfl rfl

theorem Eeprom.apply_programs (e : Eeprom) : Programs e e.apply := by
  unfold Eeprom.apply
  split
  · exact (e.store_programs _ _).1.congr rfl rfl rfl rfl rfl
  · exact (e.storeAll_programs _).congr rfl rfl rfl rfl rfl

/-- WHAT A CLOCK EDGE CAN DO TO THE CELLS, once (R381): it programs at the end of the address phase and of the data phase only. -/
theorem Eeprom.clock_programs (e : Eeprom) (dummy di : Bool) : Programs e (e.clock dummy di) := by
  have position : ∀ f : Eeprom, f.chip = e.chip → f.cells = e.cells → Programs e f := fun f hchip hcells =>
    (Programs.refl e).congr hchip hcells rfl rfl rfl
  unfold Eeprom.clock
  cases e.phase with
  | idle => exact Programs.refl e
  | receivingOpcode =>
    dsimp only
    split_ifs <;> exact position _ rfl rfl
  | receivingAddress =>
    dsimp only
    split_ifs
    · exact position _ rfl rfl
    · exact (Eeprom.dispatch_programs _).congr rfl rfl rfl rfl rfl
  | receivingData =>
    dsimp only
    split_ifs
    · exact position _ rfl rfl
    · exact (Eeprom.apply_programs _).congr rfl rfl rfl rfl rfl
  | sendingData =>
    dsimp only
    split_ifs <;> exact position _ rfl rfl

/-- A bit clocked in at the low end. -/
theorem shiftIn_eq (x : BitVec 16) (b : Bool) :
    x.extractLsb' 0 15 ++ BitVec.ofBool b = x <<< 1 ||| (BitVec.ofBool b).setWidth 16 := by
  apply BitVec.eq_of_getLsbD_eq
  intro i hi
  rw [BitVec.getLsbD_append]
  cases i with
  | zero => simp
  | succ i =>
    have low : i < 15 ∧ i < 16 ∧ i + 1 < 16 := by omega
    simp [low]

/-- The word at an address of the chip after it was stored there with writes enabled, and every other word (R381). -/
theorem Eeprom.word_store {a : Nat} (enabled : e.writeEnabled = true) (ha : a < e.chip.words)
    (hwf : Cells.wfFrom erased e.chip.words 0 e.cells = true) (v : BitVec 16) (b : Nat) :
    (e.store a v).word b = if b = a then v else e.word b := by
  rw [Eeprom.store, if_pos ⟨enabled, ha⟩]
  split
  · next h =>
    rw [Eeprom.word, if_pos (h ▸ ha), h]
    exact Cells.read_write_self hwf
  · next h =>
    simp only [Eeprom.word, Cells.read_write_other _ h]

/-- The sixteenth data bit of a `WRITE` stores the word and ends the command (R381). -/
theorem Eeprom.clock_write (dummy di : Bool) (phase : e.phase = .receivingData) (last : e.bitCount = 15)
    (write : e.command = 0b01) :
    ∃ f : Eeprom, f.chip = e.chip ∧ f.writeEnabled = e.writeEnabled ∧ f.cells = e.cells ∧
      e.clock dummy di = (f.store e.address.toNat (e.data <<< 1 ||| (BitVec.ofBool di).setWidth 16)).toIdle := by
  refine ⟨{ e with data := e.data.extractLsb' 0 15 ++ BitVec.ofBool di, bitCount := e.bitCount + 1 }, rfl, rfl, rfl, ?_⟩
  have write' : e.opcode.extractLsb' 0 2 = 0b01 := write
  simp only [Eeprom.clock, phase, last, Eeprom.apply, Eeprom.command, write', if_true, ← shiftIn_eq]
  rfl

/-- Settles O60: what a clock may program (`Eeprom.clock_programs`), and the `WRITE` it completes (`Eeprom.clock_write`). -/
theorem eepromWritesOnlyWhenEnabled : Obligations.EepromWritesOnlyWhenEnabled := by
  refine fun e dummy di => ⟨(e.clock_programs dummy di).kept, fun enabled phase last write ha hwf => ?_⟩
  obtain ⟨f, hchip, henabled, hcells, hclock⟩ := Eeprom.clock_write dummy di phase last write
  have same : ∀ b, f.word b = e.word b := fun b => by rw [Eeprom.word, Eeprom.word, hchip, hcells]
  have stored := Eeprom.word_store (henabled.trans enabled) (hchip ▸ ha) (by rwa [hchip, hcells])
    (e.data <<< 1 ||| (BitVec.ofBool di).setWidth 16)
  rw [hclock]
  exact ⟨rfl, (stored _).trans (if_pos rfl), fun a ne => (stored a).trans ((if_neg ne).trans (same a))⟩

/-! ### The host's inputs (R300, R401) -/

theorem hostReset_last (resetS : Byte) (s : State) :
    (∀ n : Fin 8, (hostReset resetS s).timers[n].last = resetEnd s) ∧
      ∀ c : Fin 4, (hostReset resetS s).audio.channels[c].last = resetEnd s := by
  rw [hostReset_eq]
  exact ⟨fun n => congrArg Timer.last (Vector.getElem_replicate n.isLt),
    fun c => congrArg Channel.last (Vector.getElem_replicate c.isLt)⟩

/-- Where the devices see the stalls, their clock is `CYC`. -/
theorem hostReset_deviceTime (resetS : Byte) (hticks : s.params.stallTicksDevices = true) :
    deviceTime (hostReset resetS s) = resetEnd s := by
  rw [hostReset_eq]
  exact if_pos hticks

/-- After `reset()` every period starts at the devices' clock; the rest of the invariant is what reset leaves alone. -/
theorem hostReset_inv (resetS : Byte) (hram : Memory.wf s.ram = true)
    (hfb : Cells.wfFrom black displayPixels 0 s.video.fb = true)
    (heeprom : Cells.wfFrom erased s.eeprom.chip.words 0 s.eeprom.cells = true) (hstall : s.suzy.stallTotal ≤ s.cyc)
    (hticks : s.params.stallTicksDevices = true) : Inv (hostReset resetS s) := by
  have ends : s.cyc ≤ resetEnd s := by
    unfold resetEnd
    omega
  have clock := hostReset_deviceTime resetS hticks
  obtain ⟨timers, channels⟩ := hostReset_last resetS s
  refine ⟨?_, ?_, ?_, ?_, ?_, fun n => ((timers n).trans clock.symm).le, fun c => ((channels c).trans clock.symm).le⟩ <;>
    rw [hostReset_eq]
  · exact hram
  · exact hfb
  · exact heeprom
  · rfl
  · exact hstall.trans ends

/-- A change of the EEPROM that programs no more than a clock may. -/
theorem Inv.setEeprom (h : Inv s) (hf : Programs s.eeprom f) : Inv (s.setEeprom f) :=
  ⟨h.ram, h.fb, hf.canonical h.eeprom, h.busy, h.stall, h.timers, h.channels⟩

theorem Inv.bumpFree (h : Inv s) : Inv s.bumpFree := ⟨h.ram, h.fb, h.eeprom, h.busy, h.stall, h.timers, h.channels⟩

theorem Inv.eepromSelect (h : Inv s) (level : Bool) : Inv (eepromSelect level s) := by
  have position : ∀ f : Eeprom, f.chip = s.eeprom.chip → f.cells = s.eeprom.cells → Inv (s.setEeprom f) :=
    fun f hchip hcells => h.setEeprom ((Programs.refl _).congr hchip hcells rfl rfl rfl)
  unfold Machine.eepromSelect
  dsimp only
  split_ifs <;> exact position _ rfl rfl

theorem Inv.eepromClock (h : Inv s) (di : Bool) : Inv (eepromClock di s) := by
  have clocked := h.setEeprom (s.eeprom.clock_programs (Config.eepromDummyBit s.freeCtr) di)
  unfold Machine.eepromClock
  dsimp only
  split_ifs
  · exact clocked.bumpFree
  · exact clocked

/-- Settles O45: input by input; those of reset and power-on are `hostReset_inv`, the EEPROM's are held by `Programs`, and the
others touch nothing the invariant speaks of. -/
theorem hostInputsKeepTheInvariant : Obligations.HostInputsKeepTheInvariant := by
  intro s input h hticks hpower
  cases input with
  | nmiLine b => exact ⟨h.ram, h.fb, h.eeprom, h.busy, h.stall, h.timers, h.channels⟩
  | reset resetS =>
    show Inv (hostReset resetS s)
    exact hostReset_inv resetS h.ram h.fb h.eeprom h.stall hticks
  | powerOn inp =>
    show Inv (powerOn inp s)
    unfold powerOn
    exact hostReset_inv inp.sp (hpower inp rfl) rfl h.eeprom le_rfl hticks
  | joystick v | switches v => exact ⟨h.ram, h.fb, h.eeprom, h.busy, h.stall, h.timers, h.channels⟩
  | eepromSelect level => exact h.eepromSelect level
  | eepromClock di => exact h.eepromClock di
  | cartPage bank v => exact ⟨h.ram, h.fb, h.eeprom, h.busy, h.stall, h.timers, h.channels⟩

end Sys2Proof.Machine

namespace Sys2Proof.Machine

/-! ## Clocks, timers: O51, O52

A timer and a channel are clocked alike: a control byte says whether and how fast, `LAST` says up to when. A tick moves `LAST` on by
whole periods and leaves the control byte, so it leaves its clock caught up (`CaughtUp`), and a second tick finds nothing to do. That
is proved once, of any such family of clocks (`TickedTo`). -/

variable {s : State} {n m : Fin 8} {now : Nat}

/-! ### Clocks (R341, R343, R370) -/

/-- What a tick goes by: the control byte and `LAST` of a timer or of a channel. -/
structure Clock where
  ctl : Byte
  last : Nat

/-- The control byte of a clock that a tick counts: enabled, and not linked to a predecessor. -/
abbrev Counts (ctl : Byte) : Prop := ctl.getLsbD 3 = true ∧ ctl.toNat % 8 ≠ 7

theorem counts_iff (ctl : Byte) : (clockEnabled ctl && !clockLinked ctl) = true ↔ Counts ctl := by
  simp [Counts, clockEnabled, ← clockLinked_iff]

theorem clockPeriod_pos (ctl : Byte) : 0 < clockPeriod ctl := by
  rw [clockPeriod_eq]
  positivity

/-- `k` periods later. -/
def Clock.after (k : Nat) (q : Clock) : Clock := { q with last := q.last + k * clockPeriod q.ctl }

theorem Clock.after_zero (q : Clock) : q.after 0 = q := by simp [Clock.after]

theorem Clock.after_one_after (k : Nat) (q : Clock) : (q.after k).after 1 = q.after (k + 1) := by
  simp [Clock.after, Nat.succ_mul, Nat.add_assoc]

/-- The whole periods elapsed at `now`. -/
def Clock.elapsed (now : Nat) (q : Clock) : Nat := (now - q.last) / clockPeriod q.ctl

/-- A tick to `now` has nothing left to do: less than a period is left of a clock that counts, and another has kept up. -/
def CaughtUp (now : Nat) (q : Clock) : Prop := if Counts q.ctl then now - q.last < clockPeriod q.ctl else q.last = now

/-- The whole periods between `LAST` and `now` leave less than one. -/
theorem Clock.after_elapsed (now : Nat) (q : Clock) : now - (q.after (q.elapsed now)).last < clockPeriod q.ctl := by
  have split := Nat.div_add_mod' (now - q.last) (clockPeriod q.ctl)
  have rest := Nat.mod_lt (now - q.last) (clockPeriod_pos q.ctl)
  dsimp only [Clock.after, Clock.elapsed]
  omega

section
variable {σ ι : Type} {clock : ι → σ → Clock} {advance stop : ι → σ → σ} {tick : σ → ι → σ} {i j : ι} {u : σ}

/-- Where each action settles its own part, keeps the parts that are settled, and does nothing to its part once that is settled,
a second round of the actions does nothing. -/
theorem foldl_foldl_of_settles {f : σ → ι → σ} {P : ι → σ → Prop} (settles : ∀ s i, P i (f s i))
    (keeps : ∀ s i j, P j s → P j (f s i)) (still : ∀ s i, P i s → f s i = s) (l : List ι) (s : σ) :
    l.foldl f (l.foldl f s) = l.foldl f s := by
  have kept : ∀ (l : List ι) (s : σ) (j : ι), P j s → P j (l.foldl f s) := fun l s j h =>
    List.foldlRecOn l f h fun s hs i _ => keeps s i j hs
  have settled : ∀ (l : List ι) (s : σ), ∀ i ∈ l, P i (l.foldl f s) := by
    intro l
    induction l with
    | nil => exact fun _ _ h => nomatch h
    | cons j l ih =>
      intro s i hi
      obtain rfl | hi := List.mem_cons.1 hi
      · exact kept l _ _ (settles s i)
      · exact ih _ i hi
  have fixed : ∀ (l : List ι) (s : σ), (∀ i ∈ l, P i s) → l.foldl f s = s := by
    intro l
    induction l with
    | nil => exact fun _ _ => rfl
    | cons j l ih =>
      intro s h
      rw [List.foldl_cons, still s j (h j (.head _))]
      exact ih s fun i hi => h i (.tail _ hi)
  exact fixed l _ (settled l s)

/-- A family of clocks that `tick` brings up to `now`, each on its own (R343): one that counts by as many whole periods as have
elapsed (`advance`), another at once (`stop`). -/
structure TickedTo (now : Nat) (clock : ι → σ → Clock) (advance stop : ι → σ → σ) (tick : σ → ι → σ) : Prop where
  counts : ∀ i u, Counts (clock i u).ctl → tick u i = (advance i)^[(clock i u).elapsed now] u
  stopped : ∀ i u, ¬ Counts (clock i u).ctl → tick u i = stop i u
  advance_self : ∀ i u, clock i (advance i u) = (clock i u).after 1
  advance_other : ∀ i j u, j ≠ i → clock j (advance i u) = clock j u
  stop_self : ∀ i u, clock i (stop i u) = { clock i u with last := now }
  stop_other : ∀ i j u, j ≠ i → clock j (stop i u) = clock j u
  stop_still : ∀ i u, (clock i u).last = now → stop i u = u

namespace TickedTo

/-- `k` periods move `LAST` on by `k` periods and leave the control byte. -/
theorem iterate_self (h : TickedTo now clock advance stop tick) (i : ι) (k : Nat) (u : σ) :
    clock i ((advance i)^[k] u) = (clock i u).after k := by
  induction k with
  | zero => exact (Clock.after_zero _).symm
  | succ k ih => rw [Function.iterate_succ_apply', h.advance_self, ih, Clock.after_one_after]

/-- So the period is the same each time. -/
theorem iterate_eq (h : TickedTo now clock advance stop tick) {elapse : Nat → ι → σ → σ}
    (heq : ∀ i u, advance i u = elapse (clockPeriod (clock i u).ctl) i u) (i : ι) (k : Nat) (u : σ) :
    (advance i)^[k] u = (elapse (clockPeriod (clock i u).ctl) i)^[k] u := by
  induction k with
  | zero => rfl
  | succ k ih =>
    have ctl : (clock i ((advance i)^[k] u)).ctl = (clock i u).ctl := by rw [h.iterate_self]; rfl
    rw [Function.iterate_succ_apply', Function.iterate_succ_apply', ← ih, heq, ctl]

/-- Another clock stays as it was. -/
theorem tick_other (h : TickedTo now clock advance stop tick) (hne : j ≠ i) (u : σ) : clock j (tick u i) = clock j u := by
  by_cases hc : Counts (clock i u).ctl
  · rw [h.counts i u hc]
    generalize (clock i u).elapsed now = k
    induction k with
    | zero => rfl
    | succ k ih => rw [Function.iterate_succ_apply', h.advance_other i j _ hne, ih]
  · rw [h.stopped i u hc, h.stop_other i j u hne]

theorem caughtUp (h : TickedTo now clock advance stop tick) (u : σ) (i : ι) : CaughtUp now (clock i (tick u i)) := by
  by_cases hc : Counts (clock i u).ctl
  · rw [h.counts i u hc, h.iterate_self, CaughtUp]
    exact (if_pos hc).mpr (Clock.after_elapsed now _)
  · rw [h.stopped i u hc, h.stop_self, CaughtUp]
    exact (if_neg hc).mpr rfl

theorem tick_of_caughtUp (h : TickedTo now clock advance stop tick) (hu : CaughtUp now (clock i u)) : tick u i = u := by
  unfold CaughtUp at hu
  split at hu
  · next hc => rw [h.counts i u hc, Clock.elapsed, Nat.div_eq_of_lt hu, Function.iterate_zero, id]
  · next hc => rw [h.stopped i u hc, h.stop_still i u hu]

/-- A second round of ticks to the same cycle does nothing. -/
theorem foldl_foldl (h : TickedTo now clock advance stop tick) (l : List ι) (u : σ) :
    l.foldl tick (l.foldl tick u) = l.foldl tick u := by
  refine foldl_foldl_of_settles (P := fun i u => CaughtUp now (clock i u)) h.caughtUp (fun u i j hj => ?_)
    (fun u i => h.tick_of_caughtUp) l u
  by_cases e : j = i
  · subst e
    exact h.caughtUp u j
  · rwa [h.tick_other e]

end TickedTo
end

/-! ### A timer's periods and its tick (R343) -/

/-- What a tick goes by, of timer `n`. -/
def timerClock (n : Fin 8) (s : State) : Clock := { ctl := s.timers[n].ctla, last := s.timers[n].last }

/-- One elapsed period of a given length. -/
def elapseTimer (period : Nat) (n : Fin 8) (s : State) : State :=
  decrementTimer 4 n (s.setTimer n { s.timers[n] with last := s.timers[n].last + period })

/-- A timer that does not count keeps up. -/
def stopTimer (now : Nat) (n : Fin 8) (s : State) : State := s.setTimer n { s.timers[n] with last := now }

/-- A decrement, cascades included, moves no timer's clock. -/
theorem decrementTimer_clock (fuel : Nat) (n m : Fin 8) (s : State) :
    timerClock m (decrementTimer fuel n s) = timerClock m s := by
  obtain ⟨last, ctla⟩ := (decrementTimer_counted fuel n s).timers m
  rw [timerClock, last, ctla, timerClock]

theorem timerClock_setTimer_other (h : m ≠ n) (s : State) (t : Timer) : timerClock m (s.setTimer n t) = timerClock m s := by
  rw [timerClock, State.setTimer_get_other s t h, timerClock]

/-- The eight timers under `TimerTick`. -/
theorem timers_tickedTo (now : Nat) : TickedTo now timerClock advanceTimer (stopTimer now) (tickTimer now) where
  counts n s h := if_pos ((counts_iff _).2 h)
  stopped n s h := if_neg (mt (counts_iff _).1 h)
  advance_self n s := by
    rw [advanceTimer, decrementTimer_clock, timerClock, State.setTimer_get_self, Clock.after, Nat.one_mul]
    rfl
  advance_other n m s h := by rw [advanceTimer, decrementTimer_clock, timerClock_setTimer_other h]
  stop_self n s := by
    rw [stopTimer, timerClock, State.setTimer_get_self]
    rfl
  stop_other n m s h := timerClock_setTimer_other h s _
  stop_still n s h := by
    rw [stopTimer, ← h]
    exact State.setTimer_same s n

/-- While the count covers the periods it goes down by them, and only `LAST` moves besides. -/
theorem advanceTimers_count (k : Nat) (h : k ≤ s.timers[n].cnt.toNat) :
    (advanceTimer n)^[k] s =
      s.setTimer n
        { s.timers[n] with
          cnt := s.timers[n].cnt - BitVec.ofNat 8 k, last := s.timers[n].last + k * clockPeriod s.timers[n].ctla } := by
  induction k with
  | zero =>
    rw [BitVec.sub_zero, Nat.zero_mul, Nat.add_zero]
    exact (State.setTimer_same s n).symm
  | succ k ih =>
    have left : s.timers[n].cnt - BitVec.ofNat 8 k ≠ 0 := by bv_omega
    have down : s.timers[n].cnt - BitVec.ofNat 8 k - 1 = s.timers[n].cnt - BitVec.ofNat 8 (k + 1) := by bv_omega
    rw [Function.iterate_succ_apply', ih (by omega), advanceTimer_pos (by rwa [State.setTimer_get_self]),
      State.setTimer_get_self, State.setTimer_setTimer, down, Nat.succ_mul, Nat.add_assoc]

/-! ### The chains (R345) -/

/-- How many timers a decrement can reach along its chain, itself included. -/
def chainLength : Fin 8 → Nat
  | 0 => 3
  | 1 => 4
  | 2 => 2
  | 3 => 3
  | 4 => 1
  | 5 => 2
  | 6 => 1
  | 7 => 1

theorem chainLength_pos : ∀ n : Fin 8, 0 < chainLength n := by decide

theorem chainLength_le : ∀ n : Fin 8, chainLength n ≤ 4 := by decide

theorem chainLength_succ : ∀ n m : Fin 8, timerSucc n = some m → chainLength m < chainLength n := by decide

/-- A bound that covers the chain is no bound. -/
theorem decrementTimer_fuel {fuel : Nat} (extra : Nat) (h : chainLength n ≤ fuel) (s : State) :
    decrementTimer (fuel + extra) n s = decrementTimer fuel n s := by
  induction fuel generalizing n s with
  | zero => exact absurd (chainLength_pos n) (by omega)
  | succ fuel ih =>
    rw [Nat.add_right_comm]
    by_cases hcnt : s.timers[n].cnt = 0
    · rw [decrementTimer_zero _ hcnt, decrementTimer_zero _ hcnt]
      cases hm : timerSucc n with
      | none => rfl
      | some m =>
        have shorter := chainLength_succ n m hm
        dsimp only
        rw [ih (by omega)]
    · rw [decrementTimer_pos _ hcnt, decrementTimer_pos _ hcnt]

/-- Settles O51: the timers are a family of clocks under the tick (`timers_tickedTo`); while a timer does not underflow its periods
are `advanceTimers_count`. -/
theorem prescaledTimerCountsWholePeriods : Obligations.PrescaledTimerCountsWholePeriods := by
  refine ⟨fun s n now => ?_, fun s now => (timers_tickedTo now).foldl_foldl _ s⟩
  have ticked := timers_tickedTo now
  refine ⟨fun counts => ⟨?_, ?_⟩, fun counts enough => ?_, ticked.stopped n s, fun fuel => ?_⟩
  · exact (ticked.counts n s counts).trans (ticked.iterate_eq (elapse := elapseTimer) (fun _ _ => rfl) n _ s)
  · rw [ticked.counts n s counts]
    exact congrArg Clock.last (ticked.iterate_self n _ s)
  · exact (ticked.counts n s counts).trans (advanceTimers_count _ enough)
  · exact decrementTimer_fuel fuel (chainLength_le n) s

/-! ### A timer's underflow (R344, R345, R352, R353) -/

/-- The vertical hook as R353 writes it. -/
theorem verticalUnderflow_eq (s : State) :
    verticalUnderflow s =
      { s with
        video := { s.video with scanline := 0, frames := BitVec.ofNat 32 ((s.video.frames.toNat + 1) % 2 ^ 32) } } := by
  have frames : s.video.frames + 1 = BitVec.ofNat 32 ((s.video.frames.toNat + 1) % 2 ^ 32) := by bv_omega
  rw [verticalUnderflow, frames]
  rfl

theorem raisePending_video (n : Fin 8) (s : State) : (raisePending n s).video = s.video := by
  rw [raisePending_eq]
  split <;> rfl

@[simp] theorem raisePending_audio (n : Fin 8) (s : State) : (raisePending n s).audio = s.audio := by
  rw [raisePending_eq]
  split <;> rfl

@[simp] theorem videoHook_audio (n : Fin 8) (s : State) : (videoHook n s).audio = s.audio := by
  unfold videoHook
  split_ifs <;> rfl

/-- The cascade into a channel as R371 writes it. -/
theorem audioCascade_eq (c : Fin 4) (s : State) :
    audioCascade c s =
      if s.audio.channels[c].ctl.getLsbD 3 = true ∧ s.audio.channels[c].ctl.toNat % 8 = 7 then decrementChannel 4 c s else s :=
  if_congr (clocked_iff _) rfl rfl

/-- Settles O52: `decrementTimer_zero`, with the request (`raisePending_eq`) and the hooks written out; neither touches the control
byte of the successor or of channel 0. -/
theorem timerUnderflowReloadsRequestsAndCascades : Obligations.TimerUnderflowReloadsRequestsAndCascades := by
  refine ⟨by decide, fun s n fuel => ⟨decrementTimer_pos fuel, fun hcnt => ?_⟩⟩
  intro u requested hooked cascaded
  have reload : s.setTimer n s.timers[n].underflow = u := rfl
  have request : raisePending n u = requested := by
    rw [raisePending_eq, State.setTimer_get_self]
    rfl
  have video : requested.video = s.video := by
    rw [← request, raisePending_video]
    rfl
  have hook : videoHook n requested = hooked := by
    rw [videoHook, verticalUnderflow_eq, video]
  have ctla : ∀ m, m ≠ n → hooked.timers[m].ctla = s.timers[m].ctla := by
    intro m hm
    rw [← hook, videoHook_timers, ← request, raisePending_timers, State.setTimer_get_other s _ hm]
  have audio : hooked.audio = s.audio := by
    rw [← hook, videoHook_audio, ← request, raisePending_audio]
    rfl
  rw [decrementTimer_zero fuel hcnt]
  simp only [reload, request, hook]
  by_cases last : n = 7
  · subst last
    show audioCascade 0 hooked = _
    rw [audioCascade_eq, audio]
    exact (if_congr (and_iff_right rfl) rfl rfl).symm
  · simp only [last, false_and, if_false]
    cases hm : timerSucc n with
    | none => simp only [cascaded, hm]
    | some m => simp only [cascaded, hm, ctla m (timerSucc_ne n m hm), clocked_iff]

end Sys2Proof.Machine

namespace Sys2Proof.Machine

/-! ## Audio channels: O56

A channel is clocked as a timer is, so its tick is that of a family of clocks (`TickedTo`). `AudioTick` while no channel underflows
is four stores, each of its own channel. -/

variable {s : State} {c e : Fin 4} {now : Nat}

/-! ### A channel's periods and its tick (R343, R371) -/

/-- What a tick goes by, of channel `c`. -/
def channelClock (c : Fin 4) (s : State) : Clock := { ctl := s.audio.channels[c].ctl, last := s.audio.channels[c].last }

/-- One elapsed period of a given length. -/
def elapseChannel (period : Nat) (c : Fin 4) (s : State) : State :=
  decrementChannel 4 c (s.setChannel c { s.audio.channels[c] with last := s.audio.channels[c].last + period })

/-- A channel that does not count keeps up. -/
def stopChannel (now : Nat) (c : Fin 4) (s : State) : State := s.setChannel c { s.audio.channels[c] with last := now }

theorem State.setChannel_same (s : State) (c : Fin 4) : s.setChannel c s.audio.channels[c] = s := by
  simp [State.setChannel]

theorem State.setChannel_setChannel (s : State) (c : Fin 4) (x y : Channel) :
    (s.setChannel c x).setChannel c y = s.setChannel c y := by
  simp [State.setChannel]

/-- A decrement, cascades included, moves no channel's clock. -/
theorem decrementChannel_clock (fuel : Nat) (c e : Fin 4) (s : State) :
    channelClock e (decrementChannel fuel c s) = channelClock e s := by
  obtain ⟨last, ctl⟩ := (decrementChannel_counted fuel c s).channels e
  rw [channelClock, last, ctl, channelClock]

theorem channelClock_setChannel_other (h : e ≠ c) (s : State) (ch : Channel) :
    channelClock e (s.setChannel c ch) = channelClock e s := by
  rw [channelClock, State.setChannel_get_other s ch h, channelClock]

/-- The four channels under `AudioTick`. -/
theorem channels_tickedTo (now : Nat) : TickedTo now channelClock advanceChannel (stopChannel now) (tickChannel now) where
  counts c s h := if_pos ((counts_iff _).2 h)
  stopped c s h := if_neg (mt (counts_iff _).1 h)
  advance_self c s := by
    rw [advanceChannel, decrementChannel_clock, channelClock, State.setChannel_get_self, Clock.after, Nat.one_mul]
    rfl
  advance_other c e s h := by rw [advanceChannel, decrementChannel_clock, channelClock_setChannel_other h]
  stop_self c s := by
    rw [stopChannel, channelClock, State.setChannel_get_self]
    rfl
  stop_other c e s h := channelClock_setChannel_other h s _
  stop_still c s h := by
    rw [stopChannel, ← h]
    exact State.setChannel_same s c

/-- While the count covers the periods it goes down by them, and only `LAST` moves besides. -/
theorem advanceChannels_count (k : Nat) (h : k ≤ s.audio.channels[c].cnt.toNat) :
    (advanceChannel c)^[k] s =
      s.setChannel c
        { s.audio.channels[c] with
          cnt := s.audio.channels[c].cnt - BitVec.ofNat 8 k
          last := s.audio.channels[c].last + k * clockPeriod s.audio.channels[c].ctl } := by
  induction k with
  | zero =>
    rw [BitVec.sub_zero, Nat.zero_mul, Nat.add_zero]
    exact (State.setChannel_same s c).symm
  | succ k ih =>
    have left : s.audio.channels[c].cnt - BitVec.ofNat 8 k ≠ 0 := by bv_omega
    have down : s.audio.channels[c].cnt - BitVec.ofNat 8 k - 1 = s.audio.channels[c].cnt - BitVec.ofNat 8 (k + 1) := by
      bv_omega
    rw [Function.iterate_succ_apply', ih (by omega), advanceChannel_pos (by rwa [State.setChannel_get_self]),
      State.setChannel_get_self, State.setChannel_setChannel, down, Nat.succ_mul, Nat.add_assoc]

/-! ### `AudioTick` while no channel underflows -/

/-- The whole periods a channel has to count at `now`. -/
def Channel.elapsed (now : Nat) (ch : Channel) : Nat := (Clock.mk ch.ctl ch.last).elapsed now

/-- A channel brought up to `now` whose count covers its periods (R343). -/
def Channel.ticked (now : Nat) (ch : Channel) : Channel :=
  if Counts ch.ctl then
    { ch with cnt := ch.cnt - BitVec.ofNat 8 (ch.elapsed now), last := ch.last + ch.elapsed now * clockPeriod ch.ctl }
  else { ch with last := now }

/-- A tick that does not underflow stores the channel and does nothing else. -/
theorem tickChannel_eq_setChannel
    (h : Counts s.audio.channels[c].ctl → s.audio.channels[c].elapsed now ≤ s.audio.channels[c].cnt.toNat) :
    tickChannel now s c = s.setChannel c (s.audio.channels[c].ticked now) := by
  unfold Channel.ticked
  split
  · next counts =>
    exact ((channels_tickedTo now).counts c s counts).trans (advanceChannels_count _ (h counts))
  · next stopped => exact (channels_tickedTo now).stopped c s stopped

/-- Ticks of different channels, none of which underflows, store those channels and do nothing else. -/
theorem foldl_tickChannel (now : Nat) (l : List (Fin 4)) (distinct : l.Nodup) (s : State)
    (h : ∀ c ∈ l, Counts s.audio.channels[c].ctl → s.audio.channels[c].elapsed now ≤ s.audio.channels[c].cnt.toNat) :
    ∃ chs : Vector Channel 4, l.foldl (tickChannel now) s = { s with audio := { s.audio with channels := chs } } ∧
      ∀ c : Fin 4, chs[c] = if c ∈ l then s.audio.channels[c].ticked now else s.audio.channels[c] := by
  induction l generalizing s with
  | nil => exact ⟨s.audio.channels, rfl, fun _ => rfl⟩
  | cons d l ih =>
    obtain ⟨hd, distinct⟩ := List.nodup_cons.1 distinct
    have others : ∀ c ∈ l, (s.setChannel d (s.audio.channels[d].ticked now)).audio.channels[c] = s.audio.channels[c] :=
      fun c hc => State.setChannel_get_other s _ (ne_of_mem_of_not_mem hc hd)
    obtain ⟨chs, fold, get⟩ := ih distinct (s.setChannel d (s.audio.channels[d].ticked now)) fun c hc => by
      rw [others c hc]
      exact h c (.tail _ hc)
    refine ⟨chs, ?_, fun c => ?_⟩
    · rw [List.foldl_cons, tickChannel_eq_setChannel (h d (.head _)), fold]
      rfl
    · rw [get c]
      by_cases hc : c ∈ l
      · rw [if_pos hc, if_pos (.tail _ hc), others c hc]
      · rw [if_neg hc]
        by_cases e : c = d
        · rw [e, State.setChannel_get_self, if_pos (.head _)]
        · rw [State.setChannel_get_other s _ e, if_neg (by simp [e, hc])]

/-- `AudioTick` over the four channels. -/
theorem audioTick_eq (now : Nat) (s : State)
    (h : ∀ c : Fin 4, Counts s.audio.channels[c].ctl → s.audio.channels[c].elapsed now ≤ s.audio.channels[c].cnt.toNat) :
    ∃ chs : Vector Channel 4, audioTick now s = { s with audio := { s.audio with channels := chs } } ∧
      ∀ c : Fin 4, chs[c] = s.audio.channels[c].ticked now := by
  obtain ⟨chs, fold, get⟩ := foldl_tickChannel now [0, 1, 2, 3] (by decide) s fun c _ => h c
  have all : ∀ c : Fin 4, c ∈ ([0, 1, 2, 3] : List (Fin 4)) := by decide
  exact ⟨chs, fold, fun c => (get c).trans (if_pos (all c))⟩

/-! ### The shift register (R372) and a channel's underflow (R371) -/

/-- The XOR of the selected taps, as R372 lists them. -/
theorem Channel.tapXor_eq (ch : Channel) :
    let tap := fun j i : Nat => ch.feedback.getLsbD j && ch.lfsr.getLsbD i
    ch.tapXor = (tap 0 0 ^^ tap 1 1 ^^ tap 2 2 ^^ tap 3 3 ^^ tap 4 4 ^^ tap 5 5 ^^ tap 6 7 ^^ tap 7 10) := by
  simp [Channel.tapXor]

/-- The register after a clock: right by one, the feedback at the top. -/
theorem Channel.clockLfsr_lfsr (ch : Channel) : ch.clockLfsr.lfsr.toNat = ch.lfsr.toNat / 2 + 2048 * ch.tapXor.toNat := by
  have := ch.lfsr.isLt
  show (BitVec.ofBool ch.tapXor ++ ch.lfsr.extractLsb' 1 11).toNat = _
  rw [append_toNat, BitVec.extractLsb'_toNat, BitVec.toNat_ofBool, Nat.shiftRight_eq_div_pow]
  omega

/-- A clamped value is a signed byte. -/
theorem clampByte_toInt (x : Int) : (clampByte x).toInt = max (-128) (min 127 x) := by
  rw [clampByte, BitVec.toInt_ofInt]
  exact Int.bmod_eq_of_le (by omega) (by omega)

/-- The output after a clock follows the bit that becomes the low one. -/
theorem Channel.clockLfsr_out (ch : Channel) :
    let d : Int := if ch.lfsr.getLsbD 1 then ch.vol.toInt else -ch.vol.toInt
    ch.clockLfsr.out.toInt = max (-128) (min 127 (if ch.ctl.getLsbD 5 then ch.out.toInt + d else d)) := by
  have low : (BitVec.ofBool ch.tapXor ++ ch.lfsr.extractLsb' 1 11).getLsbD 0 = ch.lfsr.getLsbD 1 := by
    rw [BitVec.getLsbD_append]
    simp
  simp only [Channel.clockLfsr, low]
  cases ch.ctl.getLsbD 5 <;> exact clampByte_toInt _

/-- A bound that covers the channels left is no bound. -/
theorem decrementChannel_fuel {fuel : Nat} (extra : Nat) (h : 4 ≤ c.val + fuel) (s : State) :
    decrementChannel (fuel + extra) c s = decrementChannel fuel c s := by
  induction fuel generalizing c s with
  | zero => exact absurd c.isLt (by omega)
  | succ fuel ih =>
    rw [Nat.add_right_comm]
    by_cases hcnt : s.audio.channels[c].cnt = 0
    · by_cases next : c.val + 1 < 4
      · have cascade := fun k => decrementChannel_zero (e := ⟨c.val + 1, next⟩) k hcnt rfl
        rw [cascade, cascade, ih (c := ⟨c.val + 1, next⟩) (by dsimp only; omega)]
      · rw [decrementChannel_zero_last _ hcnt next, decrementChannel_zero_last _ hcnt next]
    · rw [decrementChannel_pos _ hcnt, decrementChannel_pos _ hcnt]

/-- Settles O56: the shift register's clock, a channel's decrement, its tick, and `AudioTick` over the four (`audioTick_eq`). -/
theorem lfsrClockShiftsAndDrivesTheOutput : Obligations.LfsrClockShiftsAndDrivesTheOutput := by
  refine ⟨fun ch => ⟨?_, ch.clockLfsr_out, rfl⟩, fun s c fuel => ⟨decrementChannel_pos fuel, fun hcnt => ⟨?_, ?_⟩, ?_⟩,
    fun s c now => ?_, fun s now => (channels_tickedTo now).foldl_foldl _ s, fun s now h => ?_⟩
  · rw [ch.clockLfsr_lfsr, ch.tapXor_eq]
  · rintro rfl
    exact decrementChannel_zero_last fuel hcnt (by decide)
  · intro e he
    simp only [decrementChannel_zero fuel hcnt he, clocked_iff]
    rfl
  · exact decrementChannel_fuel fuel (by omega) s
  · have ticked := channels_tickedTo now
    refine ⟨fun counts => ⟨?_, ?_⟩, ticked.stopped c s⟩
    · exact (ticked.counts c s counts).trans (ticked.iterate_eq (elapse := elapseChannel) (fun _ _ => rfl) c _ s)
    · rw [ticked.counts c s counts]
      exact congrArg Clock.last (ticked.iterate_self c _ s)
  · obtain ⟨chs, tick, get⟩ := audioTick_eq now s h
    rw [tick]
    exact ⟨get, rfl, rfl, rfl⟩

end Sys2Proof.Machine

namespace Sys2Proof.Machine

/-! ## Mikey's registers with an action, and the line drawn: O53, O54, O55 -/

variable {s : State} {k : WriteKind} {v : Byte}

/-! ### The interrupt controller's registers (R341, R346, R347) -/

/-- `TnCTLA`, by its distance from the window's base. -/
theorem mikeyReg_ctla (n : Fin 8) : mikeyReg (BitVec.ofNat 8 (4 * n.val + 1)) = some (.timerCtla n) := by
  revert n
  decide

theorem ctla_address (n : Fin 8) : 0xFD01 + BitVec.ofNat 16 (4 * n.val) = pair 0xFD (BitVec.ofNat 8 (4 * n.val + 1)) := by
  revert n
  decide

/-- Settles O53: each write is its register's own action (`stores_mikey`), which ends by computing the line (`recomputeIrq_eq`). -/
theorem interruptRegistersSetClearAndRecompute : Obligations.InterruptRegistersSetClearAndRecompute := by
  intro k v s hs u line
  refine ⟨?_, ?_, peek_mikey_visible hs 0x80, peek_mikey_visible hs 0x81, fun n => ?_⟩
  · exact (stores_mikey (off := 0x81) hs rfl rfl rfl rfl rfl).1.trans (recomputeIrq_eq _)
  · exact (stores_mikey (off := 0x80) hs rfl rfl rfl rfl rfl).1.trans (recomputeIrq_eq _)
  · exact (stores_mikey hs (ctla_address n) (mikeyReg_ctla n) rfl rfl rfl).1.trans (recomputeIrq_eq _)

/-! ### The palette (R351) -/

theorem mikeyReg_green (i : Fin 16) : mikeyReg (BitVec.ofNat 8 (0xA0 + i.val)) = some (.green i) := by
  revert i
  decide

theorem mikeyReg_bluered (i : Fin 16) : mikeyReg (BitVec.ofNat 8 (0xB0 + i.val)) = some (.bluered i) := by
  revert i
  decide

theorem green_address (i : Fin 16) : 0xFDA0 + BitVec.ofNat 16 i.val = pair 0xFD (BitVec.ofNat 8 (0xA0 + i.val)) := by
  revert i
  decide

theorem bluered_address (i : Fin 16) : 0xFDB0 + BitVec.ofNat 16 i.val = pair 0xFD (BitVec.ofNat 8 (0xB0 + i.val)) := by
  revert i
  decide

/-- `expand4` as a number (R351). -/
theorem expand4_toNat (n : BitVec 4) : (expand4 n).toNat = 16 * n.toNat + n.toNat := by
  rw [expand4, append_toNat]
  omega

theorem lowNibble_toNat (b : Byte) : (b.extractLsb' 0 4).toNat = b.toNat % 16 := by
  rw [BitVec.extractLsb'_toNat, Nat.shiftRight_zero]

theorem highNibble_toNat (b : Byte) : (b.extractLsb' 4 4).toNat = b.toNat / 16 := by
  have := b.isLt
  rw [BitVec.extractLsb'_toNat, Nat.shiftRight_eq_div_pow]
  omega

/-- The colour of an entry, as a number (R351). -/
theorem Video.argb_toNat (w : Video) (i : Fin 16) :
    let e := fun n : Nat => 16 * n + n
    (w.argb i).toNat =
      0xFF * 2 ^ 24 + e (w.palBR[i].toNat % 16) * 2 ^ 16 + e (w.palG[i].toNat % 16) * 2 ^ 8 + e (w.palBR[i].toNat / 16) := by
  have opaqueByte : (0xFF : Byte).toNat = 0xFF := rfl
  rw [Video.argb, append_toNat, append_toNat, append_toNat, expand4_toNat, expand4_toNat, expand4_toNat, lowNibble_toNat,
    lowNibble_toNat, highNibble_toNat, opaqueByte]
  dsimp only
  omega

/-- The palette's two bytes stored. -/
def Video.setPalette (w : Video) (i : Fin 16) (g br : Byte) : Video :=
  { w with palG := w.palG.set i g, palBR := w.palBR.set i br }

/-- No other entry's colour changes. -/
theorem Video.argb_setPalette_other (w : Video) {i j : Fin 16} (h : j ≠ i) (g br : Byte) :
    (w.setPalette i g br).argb j = w.argb j := by
  have ne : ¬ i.val = j.val := fun e => h (Fin.ext e.symm)
  simp [Video.argb, Video.setPalette, ne]

/-- What the two writes leave, seen through the Mikey window. -/
theorem memWrite_palette (hs : s.mapctl.getLsbD 1 = false) (k : WriteKind) (i : Fin 16) (g br : Byte) :
    (memWrite k (pair 0xFD (BitVec.ofNat 8 (0xB0 + i.val))) br
        (memWrite k (pair 0xFD (BitVec.ofNat 8 (0xA0 + i.val))) g s)).mapctl = s.mapctl ∧
      (memWrite k (pair 0xFD (BitVec.ofNat 8 (0xB0 + i.val))) br
        (memWrite k (pair 0xFD (BitVec.ofNat 8 (0xA0 + i.val))) g s)).video = s.video.setPalette i g br := by
  rw [memWrite_mikey (region_mikey_visible hs _), mikeyWrite, mikeyReg_green]
  dsimp only
  rw [memWrite_mikey (region_mikey_visible (by exact hs) _), mikeyWrite, mikeyReg_bluered]
  exact ⟨rfl, rfl⟩

/-- Settles O54: the two writes (`memWrite_palette`), and the colour of an entry (`Video.argb_toNat`). -/
theorem paletteBytesGiveTheColour : Obligations.PaletteBytesGiveTheColour := by
  intro k i g br s hs
  dsimp only
  rw [green_address, bluered_address]
  obtain ⟨mapctl, video⟩ := memWrite_palette hs k i g br
  generalize memWrite k _ br _ = t at *
  have shown : t.mapctl.getLsbD 1 = false := by rw [mapctl]; exact hs
  have green : t.video.palG[i] = g := by rw [video]; exact Vector.getElem_set_self _
  have bluered : t.video.palBR[i] = br := by rw [video]; exact Vector.getElem_set_self _
  refine ⟨?_, ?_, ?_, fun j h => ?_⟩
  · rw [peek_mikey_visible shown, mikeyRead, mikeyReg_green]
    exact green
  · rw [peek_mikey_visible shown, mikeyRead, mikeyReg_bluered]
    exact bluered
  · rw [Video.argb_toNat, green, bluered]
  · rw [video, Video.argb_setPalette_other _ h]

/-! ### The line drawn (R352) -/

/-- A nibble's pen, as a number. -/
theorem pen_high (b : Byte) : pen (b.extractLsb' 4 4) = Fin.ofNat 16 (b.toNat / 16) := by rw [pen, highNibble_toNat]

theorem pen_low (b : Byte) : pen (b.extractLsb' 0 4) = Fin.ofNat 16 (b.toNat % 16) := by rw [pen, lowNibble_toNat]

/-- The byte of RAM that holds pixels `2 * i` and `2 * i + 1` of the current line (R352). -/
def Video.lineByte (w : Video) (ram : List Host.Cell) (i : Nat) : Byte :=
  Memory.read ram (w.dispadr + BitVec.ofNat 16 (w.scanline * 80 + i))

/-- One byte drawn: its two pixels, and no other. -/
theorem Video.renderByte_read (w : Video) (ram : List Host.Cell) {fb : List (Nat × BitVec 32)} {i : Nat}
    (hfb : Cells.wfFrom black displayPixels 0 fb = true) (hline : w.scanline < 102) (hi : i < 80) (p : Nat) :
    Cells.read black (w.renderByte ram fb i) p =
      if p = w.scanline * 160 + 2 * i + 1 then w.argb (Fin.ofNat 16 ((w.lineByte ram i).toNat % 16))
      else if p = w.scanline * 160 + 2 * i then w.argb (Fin.ofNat 16 ((w.lineByte ram i).toNat / 16))
      else Cells.read black fb p := by
  have inside : w.scanline * 160 + 2 * i < displayPixels := by
    simp only [displayPixels, displayWidth, displayHeight]
    omega
  have hleft := Cells.write_wf (v := w.argb (pen ((w.lineByte ram i).extractLsb' 4 4))) hfb (Nat.zero_le _) inside
  rw [← pen_low, ← pen_high]
  show Cells.read black (Cells.write black (Cells.write black fb (w.scanline * 160 + 2 * i) _)
    (w.scanline * 160 + 2 * i + 1) _) p = _
  split
  · next h =>
    rw [h]
    exact Cells.read_write_self hleft
  · next h =>
    rw [Cells.read_write_other _ h]
    split
    · next h =>
      rw [h]
      exact Cells.read_write_self hfb
    · next h => exact Cells.read_write_other _ h

/-- After the first `m` bytes of a line: their pixels are drawn, every other pixel is as before. -/
structure Drawn (w : Video) (ram : List Host.Cell) (m : Nat) (fb : List (Nat × BitVec 32)) : Prop where
  canonical : Cells.wfFrom black displayPixels 0 fb = true
  left : ∀ i < m, Cells.read black fb (w.scanline * 160 + 2 * i) = w.argb (Fin.ofNat 16 ((w.lineByte ram i).toNat / 16))
  right : ∀ i < m, Cells.read black fb (w.scanline * 160 + 2 * i + 1) = w.argb (Fin.ofNat 16 ((w.lineByte ram i).toNat % 16))
  others : ∀ p, p < w.scanline * 160 ∨ w.scanline * 160 + 160 ≤ p → Cells.read black fb p = Cells.read black w.fb p

theorem Drawn.renderByte {w : Video} {ram : List Host.Cell} {m : Nat} {fb : List (Nat × BitVec 32)} (h : Drawn w ram m fb)
    (hline : w.scanline < 102) (hm : m < 80) : Drawn w ram (m + 1) (w.renderByte ram fb m) := by
  have read := w.renderByte_read ram h.canonical hline hm
  refine ⟨w.renderByte_wf ram hline hm h.canonical, fun i hi => ?_, fun i hi => ?_, fun p hp => ?_⟩
  · rw [read, if_neg (by omega)]
    split
    · next e =>
      obtain rfl : i = m := by omega
      rfl
    · next e => exact h.left i (by omega)
  · rw [read, if_neg (c := _ = w.scanline * 160 + 2 * m) (by omega)]
    split
    · next e =>
      obtain rfl : i = m := by omega
      rfl
    · next e => exact h.right i (by omega)
  · rw [read, if_neg (by omega), if_neg (by omega)]
    exact h.others p hp

theorem Video.renderLine_drawn (w : Video) (ram : List Host.Cell) (hfb : Cells.wfFrom black displayPixels 0 w.fb = true)
    (hline : w.scanline < 102) : Drawn w ram 80 (w.renderLine ram) := by
  have part : ∀ m ≤ 80, Drawn w ram m ((List.range m).foldl (w.renderByte ram) w.fb) := by
    intro m
    induction m with
    | zero => exact fun _ => ⟨hfb, nofun, nofun, fun _ _ => rfl⟩
    | succ m ih =>
      intro hm
      rw [List.range_succ, List.foldl_append]
      exact (ih (by omega)).renderByte hline (by omega)
  exact part 80 le_rfl

/-- Settles O55: the line drawn is `Video.renderLine_drawn`. -/
theorem horizontalUnderflowDrawsOneLine : Obligations.HorizontalUnderflowDrawsOneLine := by
  intro s hfb
  refine ⟨rfl, rfl, rfl, fun hdma hline => ?_, fun off => ?_⟩
  · have drawn := s.video.renderLine_drawn s.ram hfb hline
    have fb : (horizontalUnderflow s).video.fb = s.video.renderLine s.ram := if_pos ⟨hdma, hline⟩
    refine ⟨fun i hi => ⟨?_, ?_⟩, fun line column hne hcol => ?_⟩
    · rw [Video.pixel, fb]
      exact drawn.left i hi
    · rw [Video.pixel, fb]
      exact drawn.right i hi
    · rw [Video.pixel, fb]
      refine drawn.others _ ?_
      simp only [displayWidth]
      omega
  · refine if_neg ?_
    rintro ⟨hdma, hline⟩
    obtain hoff | hpast := off
    · exact Bool.false_ne_true (hoff.symm.trans hdma)
    · exact absurd hline (Nat.not_lt.2 hpast)

end Sys2Proof.Machine

namespace Sys2Proof.Machine

/-! ## The math unit: O57, O58 -/

variable {s : State} {z : Suzy} {k : WriteKind} {v : Byte}

/-! ### Words of four bytes (R360) -/

/-- A word read back from its four bytes. -/
theorem quad_byteOf (w : BitVec 32) : quad (byteOf w 3) (byteOf w 2) (byteOf w 1) (byteOf w 0) = w := by
  have := w.isLt
  apply BitVec.eq_of_toNat_eq
  simp only [quad, byteOf]
  rw [append_toNat, append_toNat, append_toNat]
  simp only [BitVec.extractLsb'_toNat, Nat.shiftRight_eq_div_pow]
  omega

/-! ### The multiply (R365, R367, R368) -/

/-- The value of a factor as the sign test reads it: two's complement, but that the test on `v - 1` takes 0x8000 as positive. -/
def signedValue (test : MathSignTest) (w : BitVec 16) : Int :=
  if test = .minusOneBit15 ∧ w = 0x8000 then 0x8000 else w.toInt

/-- The number of a sign and a magnitude. -/
def signedNumber (q : Bool × BitVec 16) : Int := if q.1 then -(q.2.toNat : Int) else q.2.toNat

/-- Bit 15, the one test. -/
theorem getLsbD_fifteen (w : BitVec 16) : w.getLsbD 15 = decide (2 ^ 15 ≤ w.toNat) := by
  exact (BitVec.msb_eq_getLsbD_last w).symm.trans (BitVec.msb_eq_decide w)

/-- Bit 15 of `v - 1`, the other test. -/
theorem getLsbD_sub_one_fifteen (w : BitVec 16) : (w - 1).getLsbD 15 = decide (w = 0 ∨ 2 ^ 15 < w.toNat) := by
  rw [getLsbD_fifteen, decide_eq_decide]
  bv_omega

/-- Sign and magnitude of R367 make up the factor's value. -/
theorem signedNumber_signMag (test : MathSignTest) (w : BitVec 16) : signedNumber (signMag test w) = signedValue test w := by
  have magnitude := w.isLt
  have corner : w = 0x8000 ↔ w.toNat = 2 ^ 15 := (BitVec.toNat_inj (y := (0x8000 : BitVec 16))).symm
  have zero : w = 0 ↔ w.toNat = 0 := (BitVec.toNat_inj (y := (0 : BitVec 16))).symm
  cases test with
  | bit15 =>
    simp only [signedNumber, signMag, getLsbD_fifteen, signedValue, reduceCtorEq, false_and, if_false, decide_eq_true_eq,
      BitVec.toInt_eq_toNat_cond, apply_ite BitVec.toNat, BitVec.toNat_neg]
    split_ifs <;> omega
  | minusOneBit15 =>
    simp only [signedNumber, signMag, getLsbD_sub_one_fifteen, signedValue, true_and, corner, zero, decide_eq_true_eq,
      BitVec.toInt_eq_toNat_cond, apply_ite BitVec.toNat, BitVec.toNat_neg]
    split_ifs <;> omega

theorem wideProduct_eq_ofNat (a b : BitVec 16) : wideProduct a b = BitVec.ofNat 32 (a.toNat * b.toNat) := by
  rw [wideProduct, BitVec.ofNat_mul, BitVec.ofNat_toNat, BitVec.ofNat_toNat]

/-- The product of two magnitudes, negated when the signs differ, is that of the two numbers. -/
theorem signed_wideProduct (q r : Bool × BitVec 16) :
    (if q.1 != r.1 then -(wideProduct q.2 r.2) else wideProduct q.2 r.2) =
      BitVec.ofInt 32 (signedNumber q * signedNumber r) := by
  obtain ⟨qneg, qmag⟩ := q
  obtain ⟨rneg, rmag⟩ := r
  have plain : wideProduct qmag rmag = BitVec.ofInt 32 (qmag.toNat * rmag.toNat) := by
    rw [wideProduct_eq_ofNat, ← BitVec.ofInt_natCast, Nat.cast_mul]
  cases qneg <;> cases rneg <;> simp [signedNumber, plain, BitVec.ofInt_neg]

/-- The product of R365, in both modes. -/
theorem mathProduct_eq (test : MathSignTest) (signed : Bool) (a b : BitVec 16) :
    mathProduct test signed a b =
      if signed then BitVec.ofInt 32 (signedValue test a * signedValue test b)
      else BitVec.ofNat 32 (a.toNat * b.toNat) := by
  cases signed with
  | false => exact wideProduct_eq_ofNat a b
  | true =>
    rw [if_pos rfl, ← signedNumber_signMag, ← signedNumber_signMag, ← signed_wideProduct]
    rfl

/-- WHAT A MULTIPLY LEAVES, once (R365, R368). -/
theorem Suzy.doMultiply_spec (test : MathSignTest) (z : Suzy) :
    let prod := mathProduct test z.signed z.ab z.cd
    let sum := z.jklm.toNat + prod.toNat
    let y := z.doMultiply test
    y.efgh = prod ∧ y.ab = z.ab ∧ y.cd = z.cd ∧ y.jklm = (if z.accumulate then BitVec.ofNat 32 sum else z.jklm) ∧
      y.mathOverflow = (z.accumulate && decide (2 ^ 32 ≤ sum)) := by
  dsimp only
  unfold Suzy.doMultiply
  cases hacc : z.accumulate
  · exact ⟨quad_byteOf _, rfl, rfl, rfl, rfl⟩
  · exact ⟨quad_byteOf _, rfl, rfl, quad_byteOf _, rfl⟩

/-- Settles O57: the write stores `MATHA` and multiplies (`Suzy.doMultiply_spec`). -/
theorem mathAWriteMultiplies : Obligations.MathAWriteMultiplies := by
  refine ⟨by decide, fun k v s hs => ?_⟩
  intro t z ab value prod sum
  have written : t = (s.cycle (.write k 0xFC55 v)).setSuzy (({ z with mathA := v } : Suzy).doMultiply s.params.mathSignTest) :=
    memWrite_suzy (region_suzy_visible hs 0x55)
  obtain ⟨efgh, ab', cd, jklm, overflow⟩ := Suzy.doMultiply_spec s.params.mathSignTest { z with mathA := v }
  have product : mathProduct s.params.mathSignTest z.signed ab z.cd = prod := mathProduct_eq _ _ _ _
  have total : z.jklm.toNat + (mathProduct s.params.mathSignTest z.signed ab z.cd).toNat = sum := by rw [product]
  rw [written, ← total]
  exact ⟨efgh.trans product, ab', cd, jklm, overflow, rfl, rfl⟩

/-! ### The divide (R366, R367, R368) -/

/-- A divide by zero (R366). -/
theorem Suzy.doDivide_of_zero (free : Bool) (h : z.np = 0) :
    z.doDivide free = { (z.setAbcd 0).setJklm 0 with mathOverflow := free } := if_pos h

/-- A divide by another divisor (R366). -/
theorem Suzy.doDivide_of_ne_zero (free : Bool) (h : z.np ≠ 0) :
    z.doDivide free =
      { (z.setAbcd (mathQuotient z.signed z.efgh z.np).1).setJklm (mathQuotient z.signed z.efgh z.np).2 with
        mathOverflow := false } := if_neg h

/-- Dividend and divisor stay. -/
theorem Suzy.doDivide_kept (free : Bool) (z : Suzy) : (z.doDivide free).efgh = z.efgh ∧ (z.doDivide free).np = z.np := by
  unfold Suzy.doDivide
  dsimp only
  split <;> exact ⟨rfl, rfl⟩

/-- A remainder by a 16-bit divisor, as numbers. -/
theorem umod_setWidth_toNat (a : BitVec 32) (b : BitVec 16) : (a % b.setWidth 32).toNat = a.toNat % b.toNat := by
  rw [BitVec.toNat_umod, BitVec.toNat_setWidth_of_le (by omega)]

/-- One of the remainders R367 can mean, as numbers. -/
theorem mem_unsignedRemainders {n r : BitVec 32} {d : BitVec 16} (h : r ∈ unsignedRemainders n d) :
    ∃ a ∈ [n, n.abs], ∃ b ∈ [d, d.abs], r.toNat = a.toNat % b.toNat := by
  simp only [unsignedRemainders, List.mem_cons, List.not_mem_nil, or_false] at h
  obtain rfl | rfl | rfl | rfl := h
  · exact ⟨n, by simp, d, by simp, umod_setWidth_toNat _ _⟩
  · exact ⟨n.abs, by simp, d, by simp, umod_setWidth_toNat _ _⟩
  · exact ⟨n, by simp, d.abs, by simp, umod_setWidth_toNat _ _⟩
  · exact ⟨n.abs, by simp, d.abs, by simp, umod_setWidth_toNat _ _⟩

/-- A divisor's magnitude is no more than the divisor, and not zero if the divisor is not. -/
theorem abs_toNat_le (d : BitVec 16) : d.abs.toNat ≤ d.toNat ∧ (d ≠ 0 → 0 < d.abs.toNat) := by
  have := d.isLt
  have zero : d = 0 ↔ d.toNat = 0 := (BitVec.toNat_inj (y := (0 : BitVec 16))).symm
  rw [BitVec.toNat_abs, BitVec.msb_eq_decide, ne_eq, zero]
  simp only [decide_eq_true_eq]
  split_ifs <;> omega

/-- WHAT THE REMAINDER CAN BE, once (R366, R367): that of the operands in unsigned mode, one of `unsignedRemainders` in signed
mode; below the divisor in both. -/
theorem mathQuotient_remainder (signed : Bool) (n : BitVec 32) {d : BitVec 16} (hd : d ≠ 0) :
    (∃ a ∈ [n, n.abs], ∃ b ∈ [d, d.abs], (mathQuotient signed n d).2.toNat = a.toNat % b.toNat) ∧
      (mathQuotient signed n d).2.toNat < d.toNat := by
  have member : (mathQuotient signed n d).2 ∈ unsignedRemainders n d := by
    cases signed with
    | false => exact .head _
    | true => exact signedQuotient_mem n d
  have numbers := mem_unsignedRemainders member
  refine ⟨numbers, ?_⟩
  obtain ⟨a, -, b, hb, remainder⟩ := numbers
  obtain ⟨hle, hpos⟩ := abs_toNat_le d
  have bounds : 0 < b.toNat ∧ b.toNat ≤ d.toNat := by
    simp only [List.mem_cons, List.not_mem_nil, or_false] at hb
    obtain rfl | rfl := hb
    · exact ⟨(hpos hd).trans_le hle, le_rfl⟩
    · exact ⟨hpos hd, hle⟩
  rw [remainder]
  exact (Nat.mod_lt _ bounds.1).trans_le bounds.2

/-- The unsigned divide (R366). -/
theorem mathQuotient_unsigned (n : BitVec 32) (d : BitVec 16) :
    (mathQuotient false n d).1.toNat = n.toNat / d.toNat ∧ (mathQuotient false n d).2.toNat = n.toNat % d.toNat := by
  have quotient : (n / d.setWidth 32).toNat = n.toNat / d.toNat := by
    rw [BitVec.toNat_udiv, BitVec.toNat_setWidth_of_le (by omega)]
  exact ⟨quotient, umod_setWidth_toNat n d⟩

/-- The remainder of a signed divide of operands that are not negative. -/
theorem mathQuotient_signed_nonneg {n : BitVec 32} {d : BitVec 16} (hn : n.toNat < 2 ^ 31) (hd : d.toNat < 2 ^ 15) :
    (mathQuotient true n d).2.toNat = n.toNat % d.toNat := by
  have nPos : n.msb = false := by
    rw [BitVec.msb_eq_decide]
    exact decide_eq_false (Nat.not_le.2 hn)
  have dPos : d.msb = false := by
    rw [BitVec.msb_eq_decide]
    exact decide_eq_false (Nat.not_le.2 hd)
  rw [← umod_setWidth_toNat, ← signedQuotient_nonneg nPos dPos]
  rfl

/-- A divide by zero gives zeros and uses a free value (R366). -/
theorem divide_of_zero (h : s.suzy.np = 0) :
    (divide s).suzy.abcd = 0 ∧ (divide s).suzy.jklm = 0 ∧ (divide s).freeCtr = s.freeCtr + 1 := by
  have left : divide s = (s.setSuzy (s.suzy.doDivide (Config.divideByZeroOverflow s.freeCtr))).bumpFree := if_pos h
  rw [left, Suzy.doDivide_of_zero _ h]
  exact ⟨quad_byteOf 0, quad_byteOf 0, rfl⟩

/-- A divide by another divisor gives quotient and remainder, and clears the overflow flag (R366, R368). -/
theorem divide_of_ne_zero (h : s.suzy.np ≠ 0) :
    let q := mathQuotient s.suzy.signed s.suzy.efgh s.suzy.np
    (divide s).suzy.abcd = q.1 ∧ (divide s).suzy.jklm = q.2 ∧ (divide s).suzy.mathOverflow = false ∧
      (divide s).freeCtr = s.freeCtr := by
  have left : divide s = s.setSuzy (s.suzy.doDivide (Config.divideByZeroOverflow s.freeCtr)) := if_neg h
  rw [left, Suzy.doDivide_of_ne_zero _ h]
  exact ⟨quad_byteOf _, quad_byteOf _, rfl, rfl⟩

/-- What every divide keeps. -/
theorem divide_kept_operands (s : State) :
    (divide s).suzy.efgh = s.suzy.efgh ∧ (divide s).suzy.np = s.suzy.np ∧ (divide s).ram = s.ram ∧ (divide s).cyc = s.cyc := by
  obtain ⟨efgh, np⟩ := Suzy.doDivide_kept (Config.divideByZeroOverflow s.freeCtr) s.suzy
  unfold divide
  dsimp only
  split <;> exact ⟨efgh, np, rfl, rfl⟩

/-- Settles O58: the write stores `MATHE` and divides; the remainder is `mathQuotient_remainder`. -/
theorem mathEWriteDivides : Obligations.MathEWriteDivides := by
  intro k v s hs t z n
  have written : t = divide ((s.cycle (.write k 0xFC63 v)).setSuzy { z with mathE := v }) :=
    memWrite_suzy (region_suzy_visible hs 0x63)
  clear_value t
  subst written
  refine ⟨fun hz => divide_of_zero hz, fun hz unsigned => ?_, fun hz signed => ?_, fun hz => ?_, divide_kept_operands _⟩
  all_goals obtain ⟨abcd, jklm, overflow, free⟩ :=
    divide_of_ne_zero (s := (s.cycle (.write k 0xFC63 v)).setSuzy { z with mathE := v }) hz
  · rw [abcd, jklm]
    show (mathQuotient z.signed n z.np).1.toNat = _ ∧ (mathQuotient z.signed n z.np).2.toNat = _
    rw [unsigned]
    exact mathQuotient_unsigned n z.np
  · rw [jklm]
    refine ⟨(mathQuotient_remainder z.signed n hz).1, fun hn hd => ?_⟩
    show (mathQuotient z.signed n z.np).2.toNat = _
    rw [signed]
    exact mathQuotient_signed_nonneg hn hd
  · rw [jklm]
    exact ⟨overflow, free, (mathQuotient_remainder z.signed n hz).2⟩

end Sys2Proof.Machine

namespace Sys2Proof.Machine

/-! ## The sprite engine: O59 -/

variable {s : State} {k : WriteKind} {v : Byte}

/-! ### A walk before its stall is charged (R361) -/

/-- Rendering touches neither the clock nor the running total of the stalls. -/
theorem walkChain_clock (left : Nat) (a : Addr) (s : State) :
    (walkChain left a s).cyc = s.cyc ∧ (walkChain left a s).suzy.stallTotal = s.suzy.stallTotal := by
  induction left generalizing a s with
  | zero => exact ⟨rfl, rfl⟩
  | succ left ih =>
    unfold walkChain
    dsimp only
    split
    · exact ⟨rfl, rfl⟩
    · exact ih _ (renderSprite a s)

/-- One SCB of a walk: the walk goes on where its next pointer is outside page 0 (R363). -/
theorem walkChain_succ (left : Nat) (a : Addr) (s : State) :
    walkChain (left + 1) a s =
      if hiByte (nextScb s.ram a) = 0 then renderSprite a s else walkChain left (nextScb s.ram a) (renderSprite a s) := rfl

/-- The collision number as the low four bits of its byte (R362). -/
theorem collisionNumber_eq (ram : List Host.Cell) (a : Addr) :
    collisionNumber ram a = BitVec.ofNat 4 ((Memory.read ram (a + 2)).toNat % 16) := by
  apply BitVec.eq_of_toNat_eq
  rw [collisionNumber, BitVec.extractLsb'_toNat, BitVec.toNat_ofNat, Nat.shiftRight_zero]
  omega

/-! ### A start (R361) -/

/-- The engine as a start finds it: busy, with no stall yet. -/
def startedEngine (s : State) : State := s.setSuzy { s.suzy with busy := true, stall := 0 }

/-- A start with `SCBADR` outside page 0 walks the chain and charges the stall. -/
theorem startSpriteEngine_eq (h : hiByte s.suzy.scbadr ≠ 0) :
    startSpriteEngine s = chargeStall (walkChain 256 s.suzy.scbadr (startedEngine s)) := by
  have runs : firstScbRuns s = true := by
    rw [firstScbRuns, bne_iff_ne.2 h, Bool.true_or]
  unfold startSpriteEngine
  simp only [runs, if_true, if_neg h]
  rfl

/-- A write of `SPRGO` (R360). -/
theorem memWrite_sprgo (hs : s.mapctl.getLsbD 0 = false) (k : WriteKind) (v : Byte) :
    memWrite k 0xFC91 v s =
      if v.getLsbD 0 then startSpriteEngine (s.cycle (.write k 0xFC91 v)) else s.cycle (.write k 0xFC91 v) :=
  memWrite_suzy (region_suzy_visible hs 0x91)

/-- Settles O59: the start (`startSpriteEngine_eq`), the walk (`walkChain_succ`, `walkChain_spec`), and what one action does
(`Canvas.collide_coll`, `Canvas.collide_read`). -/
theorem spriteChainEndsAtAPageZeroPointer : Obligations.SpriteChainEndsAtAPageZeroPointer := by
  refine ⟨fun k v s hs hpage => ?_, fun c number a v hit hwf => ?_⟩
  · intro t next number r1 written started one n1 two n2
    have start : v.getLsbD 0 = true → t = chargeStall (walkChain 256 s.suzy.scbadr started) := by
      intro go
      exact ((memWrite_sprgo hs k v).trans (if_pos go)).trans (startSpriteEngine_eq hpage)
    refine ⟨fun stay => (memWrite_sprgo hs k v).trans (if_neg (Bool.eq_false_iff.1 stay)), fun go => ?_, fun go last => ?_,
      fun go more => ?_, fun go => ?_⟩
    · obtain ⟨cyc, total⟩ := walkChain_clock 256 s.suzy.scbadr started
      rw [start go]
      exact ⟨rfl, congrArg (· + _) total, congrArg (· + _) cyc⟩
    · have single : walkChain 256 s.suzy.scbadr started = one := (walkChain_succ 255 _ _).trans (if_pos last)
      have canvas : r1.actions.foldl (Canvas.act (collisionNumber s.ram s.suzy.scbadr)) { ram := s.ram, coll := s.suzy.coll } =
          written := by
        rw [collisionNumber_eq]
      have coll : t.suzy.coll = written.coll := by
        rw [start go, single]
        exact congrArg Canvas.coll canvas
      refine ⟨?_, coll, ?_, ?_, fun h => coll.trans (Canvas.foldl_act_coll_same _ h)⟩
      all_goals rw [start go, single]
      · exact congrArg Canvas.ram canvas
      · exact Nat.zero_add _
      · rfl
    · rw [start go]
      exact congrArg chargeStall ((walkChain_succ 255 _ _).trans ((if_neg more).trans (walkChain_succ 254 n1 one)))
    · obtain ⟨j, one_le, le, walk, before, ends⟩ := walkChain_spec 255 s.suzy.scbadr started
      refine ⟨j, one_le, le, ?_, before, ends⟩
      rw [start go]
      exact congrArg chargeStall walk
  · intro drawn w p old
    have drawn_eq : ∀ b, Memory.read (c.store a v).ram b = drawn b := fun b => Memory.read_write hwf a b v
    refine ⟨⟨rfl, drawn_eq⟩, ?_, fun hne => ?_⟩
    · rintro rfl
      exact ⟨rfl, drawn_eq⟩
    · have hp : p = (c.store a v).collide hit := if_neg hne
      rw [hp]
      refine ⟨?_, fun i hi => ?_, fun b => ?_⟩
      · rw [Canvas.collide_coll, if_pos rfl]
      · rw [Canvas.collide_coll, if_neg hi]
        rfl
      · rw [Canvas.collide_read (Canvas.store_wf hwf a v), drawn_eq]
        rfl

end Sys2Proof.Machine
